-- ==== Sys2Proof/Word.lean ====
section
/-!
DEFINITION. The widths of 00_scope.md R9: bytes, CPU addresses and the PPU's 15-bit scroll registers.
-/

namespace Sys2Proof

/-- A `u8` of R11: register and data width (R9). -/
abbrev Byte := BitVec 8

/-- A `u16` of R11: the program counter and CPU addresses (R9). -/
abbrev Word := BitVec 16

/-- The 15-bit registers v and t of the PPU (R9, R38). -/
abbrev Loopy := BitVec 15

end Sys2Proof
end

