-- ==== Sys2Proof/Config.lean ====
section
/-!
DEFINITION. The behaviours the source leaves open, as 00_scope.md R10 lists them: one field per parameter, with R10's defaults.
They are plain data: a statement about every state is a statement about every value of every parameter (log 4).
-/

namespace Sys2Proof

/-- `ADC_CARRY_RULE` (R10, R146, D1). -/
inductive CarryRule where
  | sum9
  | majority
  deriving DecidableEq, Repr

/-- `BRK_PUSH_OFFSET` (R10, R220, D9): the pushed return address is f + 1 or f + 2. -/
inductive BrkOffset where
  | one
  | two
  deriving DecidableEq, Repr

/-- The parameters of R10, but for the launch values (see `Launch`). -/
structure Params where
  /-- `ADC_CARRY_RULE`. -/
  adcCarryRule : CarryRule
  /-- `HALT_OPCODES`, a set of opcode bytes; R240 makes it a subset of the unofficial ones (log 8). -/
  haltOpcodes : List Byte
  /-- `EAGER_OPERAND_READ`. -/
  eagerOperandRead : Bool
  /-- `ZP_POINTER_WRAP`. -/
  zpPointerWrap : Bool
  /-- `BRK_PUSH_OFFSET`. -/
  brkPushOffset : BrkOffset
  /-- `NMI_PUSHES_BREAK`. -/
  nmiPushesBreak : Bool
  /-- `RENDERING_GATE`. -/
  renderingGate : Bool
  /-- `PPUDATA_READ_BUFFERED`. -/
  ppudataReadBuffered : Bool
  /-- `PPU_TICKS_PER_CPU_TICK`, used only by the reference scheduler of R301. -/
  ppuTicksPerCpuTick : Nat
  deriving DecidableEq, Repr

/-- The twelve KIL bytes: the default of `HALT_OPCODES` (R10, R240, D4). -/
def kilBytes : List Byte :=
  [0x02, 0x12, 0x22, 0x32, 0x42, 0x52, 0x62, 0x72, 0x92, 0xB2, 0xD2, 0xF2]

/-- The default column of R10. -/
def Params.default : Params where
  adcCarryRule := .sum9
  haltOpcodes := kilBytes
  eagerOperandRead := false
  zpPointerWrap := false
  brkPushOffset := .one
  nmiPushesBreak := true
  renderingGate := false
  ppudataReadBuffered := false
  ppuTicksPerCpuTick := 3

end Sys2Proof
end

