-- ==== Sys2Proof/Syntax.lean ====
section
/-!
DEFINITION. The instructions of 30_encoding.md: "an immutable (Mnemonic, AddressingMode) pair" (R90). A constructor of `Instr` is a
mnemonic and its argument is the operand with its mode, so that a row of spec/opcode_table.json is a constructor together with a mode
(and, where several opcode bytes share mnemonic and mode, the byte itself). Which modes a mnemonic has is `Instr.wf` (log 13).
-/

namespace Sys2Proof

/-- The twelve addressing modes (R90, R94 to R102). -/
inductive Mode where
  | imp | imm | rel | zrp | zpx | zpy | abs | abx | aby | ind | izx | izy
  deriving DecidableEq, Repr

/-- An operand in memory, reached through an effective address (R97, R98, R99, R101, R102). -/
inductive MemMode where
  /-- `$zp` -/
  | zrp (zp : Byte)
  /-- `$zp,X` -/
  | zpx (zp : Byte)
  /-- `$zp,Y` -/
  | zpy (zp : Byte)
  /-- `$addr` -/
  | abs (addr : Word)
  /-- `$addr,X` -/
  | abx (addr : Word)
  /-- `$addr,Y` -/
  | aby (addr : Word)
  /-- `($zp,X)` -/
  | izx (zp : Byte)
  /-- `($zp),Y` -/
  | izy (zp : Byte)
  deriving DecidableEq, Repr

/-- Where an instruction that reads M takes it from: the immediate byte (R95) or memory. -/
inductive Source where
  | imm (b : Byte)
  | mem (m : MemMode)
  deriving DecidableEq, Repr

/-- What a shift or rotate reads and writes: A in IMP mode (R94) or memory. -/
inductive Target where
  | acc
  | mem (m : MemMode)
  deriving DecidableEq, Repr

/-- JMP's operand: ABS (R99) or IND (R100). -/
inductive JumpTarget where
  | abs (addr : Word)
  | ind (ptr : Word)
  deriving DecidableEq, Repr

/-- The operand bytes an unofficial NOP fetches and discards, with the mode that fixes their number (R241). -/
inductive Skipped where
  | imp
  | imm (b : Byte)
  | mem (m : MemMode)
  deriving DecidableEq, Repr

/-- The mnemonics of spec/opcode_table.json with their operands. The 56 official ones come first (R105), then the labels of the
unofficial opcodes (R106). -/
inductive Instr where
  -- loads, stores, transfers (40_load_store_transfer.md)
  | lda (src : Source)
  | ldx (src : Source)
  | ldy (src : Source)
  | sta (dst : MemMode)
  | stx (dst : MemMode)
  | sty (dst : MemMode)
  | tax
  | tay
  | txa
  | tya
  | tsx
  | txs
  -- arithmetic, logic, compare, increment and decrement (41_arithmetic_logic.md)
  | adc (src : Source)
  | sbc (src : Source)
  | and (src : Source)
  | ora (src : Source)
  | eor (src : Source)
  | bit (src : MemMode)
  | cmp (src : Source)
  | cpx (src : Source)
  | cpy (src : Source)
  | inc (dst : MemMode)
  | dec (dst : MemMode)
  | inx
  | iny
  | dex
  | dey
  -- shifts and rotates (42_shift_rotate.md)
  | asl (dst : Target)
  | lsr (dst : Target)
  | rol (dst : Target)
  | ror (dst : Target)
  -- jumps, calls and branches (43_control_transfer.md)
  | jmp (target : JumpTarget)
  | jsr (addr : Word)
  | rts
  | bpl (rel : Byte)
  | bmi (rel : Byte)
  | bvc (rel : Byte)
  | bvs (rel : Byte)
  | bcc (rel : Byte)
  | bcs (rel : Byte)
  | bne (rel : Byte)
  | beq (rel : Byte)
  -- stack, flags and system (44_stack_flags_system.md)
  | pha
  | pla
  | php
  | plp
  | clc
  | sec
  | cli
  | sei
  | clv
  | nop
  | brk
  | sed
  | cld
  | rti
  -- unofficial opcodes (45_unofficial.md); the labels name no operation here (R106)
  | kil (op : Byte)
  | nopUnofficial (op : Byte) (operand : Skipped)
  | slo (m : MemMode)
  | rla (m : MemMode)
  | sre (m : MemMode)
  | rra (m : MemMode)
  | sax (m : MemMode)
  | lax (src : Source)
  | dcp (m : MemMode)
  | isc (m : MemMode)
  | anc (op : Byte) (b : Byte)
  | alr (b : Byte)
  | arr (b : Byte)
  | xaa (b : Byte)
  | axs (b : Byte)
  | ahx (m : MemMode)
  | tas (addr : Word)
  | shy (addr : Word)
  | shx (addr : Word)
  | las (addr : Word)
  | usbc (b : Byte)
  deriving DecidableEq, Repr

/-- The mode of an operand in memory. -/
def MemMode.mode : MemMode → Mode
  | .zrp _ => .zrp
  | .zpx _ => .zpx
  | .zpy _ => .zpy
  | .abs _ => .abs
  | .abx _ => .abx
  | .aby _ => .aby
  | .izx _ => .izx
  | .izy _ => .izy

/-- The mode of a source operand. -/
def Source.mode : Source → Mode
  | .imm _ => .imm
  | .mem m => m.mode

/-- The mode of a shift's operand: the accumulator form is IMP (R94). -/
def Target.mode : Target → Mode
  | .acc => .imp
  | .mem m => m.mode

/-- The mode of JMP's operand. -/
def JumpTarget.mode : JumpTarget → Mode
  | .abs _ => .abs
  | .ind _ => .ind

/-- The mode of an unofficial NOP's operand. -/
def Skipped.mode : Skipped → Mode
  | .imp => .imp
  | .imm _ => .imm
  | .mem m => m.mode

/-- The addressing mode of an instruction: the "AddressingMode" of R90's pair. -/
def Instr.mode : Instr → Mode
  | .lda src | .ldx src | .ldy src | .adc src | .sbc src | .and src | .ora src | .eor src | .cmp src | .cpx src | .cpy src
  | .lax src => src.mode
  | .sta m | .stx m | .sty m | .bit m | .inc m | .dec m | .slo m | .rla m | .sre m | .rra m | .sax m | .dcp m | .isc m
  | .ahx m => m.mode
  | .asl d | .lsr d | .rol d | .ror d => d.mode
  | .jmp target => target.mode
  | .jsr _ => .abs
  | .bpl _ | .bmi _ | .bvc _ | .bvs _ | .bcc _ | .bcs _ | .bne _ | .beq _ => .rel
  | .nopUnofficial _ operand => operand.mode
  | .anc _ _ | .alr _ | .arr _ | .xaa _ | .axs _ | .usbc _ => .imm
  | .shy _ => .abx
  | .tas _ | .shx _ | .las _ => .aby
  | .tax | .tay | .txa | .tya | .tsx | .txs | .inx | .iny | .dex | .dey | .rts | .pha | .pla | .php | .plp
  | .clc | .sec | .cli | .sei | .clv | .nop | .brk | .sed | .cld | .rti | .kil _ => .imp

/-- Length by mode (R91). -/
def Mode.length : Mode → Nat
  | .imp => 1
  | .imm | .rel | .zrp | .zpx | .zpy | .izx | .izy => 2
  | .abs | .abx | .aby | .ind => 3

/-- "length (1–3 bytes) derived from mode" (R90). -/
def Instr.length (i : Instr) : Nat :=
  i.mode.length

/-- The 56 official mnemonics (R105); every other constructor is an unofficial opcode (R106). -/
def Instr.official : Instr → Bool
  | .kil _ | .nopUnofficial _ _ | .slo _ | .rla _ | .sre _ | .rra _ | .sax _ | .lax _ | .dcp _ | .isc _ | .anc _ _ | .alr _
  | .arr _ | .xaa _ | .axs _ | .ahx _ | .tas _ | .shy _ | .shx _ | .las _ | .usbc _ => false
  | .lda _ | .ldx _ | .ldy _ | .sta _ | .stx _ | .sty _ | .tax | .tay | .txa | .tya | .tsx | .txs
  | .adc _ | .sbc _ | .and _ | .ora _ | .eor _ | .bit _ | .cmp _ | .cpx _ | .cpy _ | .inc _ | .dec _
  | .inx | .iny | .dex | .dey | .asl _ | .lsr _ | .rol _ | .ror _ | .jmp _ | .jsr _ | .rts
  | .bpl _ | .bmi _ | .bvc _ | .bvs _ | .bcc _ | .bcs _ | .bne _ | .beq _
  | .pha | .pla | .php | .plp | .clc | .sec | .cli | .sei | .clv | .nop | .brk | .sed | .cld | .rti => true

end Sys2Proof
end

