-- ==== Sys2Proof/WellFormed.lean ====
section
/-!
DEFINITION. Which (mnemonic, mode) pairs are rows of the decode table: the "Encodings" line of each rule of 40_load_store_transfer.md to
44_stack_flags_system.md, and R104 and R242 for the unofficial opcodes.
-/

namespace Sys2Proof

/-- The eight modes of LDA, ADC, SBC, AND, ORA, EOR and CMP. -/
def Mode.accumulatorModes : List Mode :=
  [.imm, .zrp, .zpx, .abs, .abx, .aby, .izx, .izy]

/-- The seven modes of SLO, RLA, SRE, RRA, DCP and ISC; also STA's. -/
def Mode.memoryModes : List Mode :=
  [.zrp, .zpx, .abs, .abx, .aby, .izx, .izy]

/-- The memory modes of INC, DEC and the shifts. -/
def Mode.modifyModes : List Mode :=
  [.zrp, .zpx, .abs, .abx]

/-- The opcode bytes of the unofficial NOPs, by mode (R242; the unofficial cells NOP of R104). -/
def Mode.nopBytes : Mode → List Byte
  | .imp => [0x1A, 0x3A, 0x5A, 0x7A, 0xDA, 0xFA]
  | .imm => [0x80, 0x82, 0x89, 0xC2, 0xE2]
  | .zrp => [0x04, 0x44, 0x64]
  | .zpx => [0x14, 0x34, 0x54, 0x74, 0xD4, 0xF4]
  | .abs => [0x0C]
  | .abx => [0x1C, 0x3C, 0x5C, 0x7C, 0xDC, 0xFC]
  | .rel | .zpy | .aby | .ind | .izx | .izy => []

/-- The two ANC cells of R104. -/
def ancCells : List Byte :=
  [0x0B, 0x2B]

/-- An instruction is well formed when the decode table of R104 has a cell for it. -/
def Instr.wf : Instr → Bool
  | .lda s | .adc s | .sbc s | .and s | .ora s | .eor s | .cmp s => Mode.accumulatorModes.contains s.mode
  | .ldx s => [Mode.imm, .zrp, .zpy, .abs, .aby].contains s.mode
  | .ldy s => [Mode.imm, .zrp, .zpx, .abs, .abx].contains s.mode
  | .cpx s | .cpy s => [Mode.imm, .zrp, .abs].contains s.mode
  | .sta m | .slo m | .rla m | .sre m | .rra m | .dcp m | .isc m => Mode.memoryModes.contains m.mode
  | .stx m => [Mode.zrp, .zpy, .abs].contains m.mode
  | .sty m => [Mode.zrp, .zpx, .abs].contains m.mode
  | .bit m => [Mode.zrp, .abs].contains m.mode
  | .inc m | .dec m => Mode.modifyModes.contains m.mode
  | .asl d | .lsr d | .rol d | .ror d => d.mode == .imp || Mode.modifyModes.contains d.mode
  | .kil op => kilBytes.contains op
  | .nopUnofficial op operand => operand.mode.nopBytes.contains op
  | .sax m => [Mode.izx, .zrp, .abs, .zpy].contains m.mode
  | .lax s => [Mode.izx, .zrp, .imm, .abs, .izy, .zpy, .aby].contains s.mode
  | .anc op _ => ancCells.contains op
  | .ahx m => [Mode.izy, .aby].contains m.mode
  | .tax | .tay | .txa | .tya | .tsx | .txs | .inx | .iny | .dex | .dey | .jmp _ | .jsr _ | .rts
  | .bpl _ | .bmi _ | .bvc _ | .bvs _ | .bcc _ | .bcs _ | .bne _ | .beq _
  | .pha | .pla | .php | .plp | .clc | .sec | .cli | .sei | .clv | .nop | .brk | .sed | .cld | .rti
  | .alr _ | .arr _ | .xaa _ | .axs _ | .tas _ | .shy _ | .shx _ | .las _ | .usbc _ => true

end Sys2Proof
end

