-- ==== Sys2Proof/Decode.lean ====
section
/-!
DEFINITION. The decoder of 30_encoding.md: the 256-cell table of R104, row by row as the spec prints it (`_` is column F), the fetch order
of R90 to R92, and the encoder written from the "Encodings" lines of the instruction rules.
-/

namespace Sys2Proof

/-- Row 0x of R104. -/
def decodeRow0 (col : Nat) (b : Byte) (w : Word) : Instr :=
  match col with
  | 0x0 => .brk
  | 0x1 => .ora (.mem (.izx b))
  | 0x2 => .kil 0x02
  | 0x3 => .slo (.izx b)
  | 0x4 => .nopUnofficial 0x04 (.mem (.zrp b))
  | 0x5 => .ora (.mem (.zrp b))
  | 0x6 => .asl (.mem (.zrp b))
  | 0x7 => .slo (.zrp b)
  | 0x8 => .php
  | 0x9 => .ora (.imm b)
  | 0xA => .asl .acc
  | 0xB => .anc 0x0B b
  | 0xC => .nopUnofficial 0x0C (.mem (.abs w))
  | 0xD => .ora (.mem (.abs w))
  | 0xE => .asl (.mem (.abs w))
  | _ => .slo (.abs w)

/-- Row 1x of R104. -/
def decodeRow1 (col : Nat) (b : Byte) (w : Word) : Instr :=
  match col with
  | 0x0 => .bpl b
  | 0x1 => .ora (.mem (.izy b))
  | 0x2 => .kil 0x12
  | 0x3 => .slo (.izy b)
  | 0x4 => .nopUnofficial 0x14 (.mem (.zpx b))
  | 0x5 => .ora (.mem (.zpx b))
  | 0x6 => .asl (.mem (.zpx b))
  | 0x7 => .slo (.zpx b)
  | 0x8 => .clc
  | 0x9 => .ora (.mem (.aby w))
  | 0xA => .nopUnofficial 0x1A .imp
  | 0xB => .slo (.aby w)
  | 0xC => .nopUnofficial 0x1C (.mem (.abx w))
  | 0xD => .ora (.mem (.abx w))
  | 0xE => .asl (.mem (.abx w))
  | _ => .slo (.abx w)

/-- Row 2x of R104. -/
def decodeRow2 (col : Nat) (b : Byte) (w : Word) : Instr :=
  match col with
  | 0x0 => .jsr w
  | 0x1 => .and (.mem (.izx b))
  | 0x2 => .kil 0x22
  | 0x3 => .rla (.izx b)
  | 0x4 => .bit (.zrp b)
  | 0x5 => .and (.mem (.zrp b))
  | 0x6 => .rol (.mem (.zrp b))
  | 0x7 => .rla (.zrp b)
  | 0x8 => .plp
  | 0x9 => .and (.imm b)
  | 0xA => .rol .acc
  | 0xB => .anc 0x2B b
  | 0xC => .bit (.abs w)
  | 0xD => .and (.mem (.abs w))
  | 0xE => .rol (.mem (.abs w))
  | _ => .rla (.abs w)

/-- Row 3x of R104. -/
def decodeRow3 (col : Nat) (b : Byte) (w : Word) : Instr :=
  match col with
  | 0x0 => .bmi b
  | 0x1 => .and (.mem (.izy b))
  | 0x2 => .kil 0x32
  | 0x3 => .rla (.izy b)
  | 0x4 => .nopUnofficial 0x34 (.mem (.zpx b))
  | 0x5 => .and (.mem (.zpx b))
  | 0x6 => .rol (.mem (.zpx b))
  | 0x7 => .rla (.zpx b)
  | 0x8 => .sec
  | 0x9 => .and (.mem (.aby w))
  | 0xA => .nopUnofficial 0x3A .imp
  | 0xB => .rla (.aby w)
  | 0xC => .nopUnofficial 0x3C (.mem (.abx w))
  | 0xD => .and (.mem (.abx w))
  | 0xE => .rol (.mem (.abx w))
  | _ => .rla (.abx w)

/-- Row 4x of R104. -/
def decodeRow4 (col : Nat) (b : Byte) (w : Word) : Instr :=
  match col with
  | 0x0 => .rti
  | 0x1 => .eor (.mem (.izx b))
  | 0x2 => .kil 0x42
  | 0x3 => .sre (.izx b)
  | 0x4 => .nopUnofficial 0x44 (.mem (.zrp b))
  | 0x5 => .eor (.mem (.zrp b))
  | 0x6 => .lsr (.mem (.zrp b))
  | 0x7 => .sre (.zrp b)
  | 0x8 => .pha
  | 0x9 => .eor (.imm b)
  | 0xA => .lsr .acc
  | 0xB => .alr b
  | 0xC => .jmp (.abs w)
  | 0xD => .eor (.mem (.abs w))
  | 0xE => .lsr (.mem (.abs w))
  | _ => .sre (.abs w)

/-- Row 5x of R104. -/
def decodeRow5 (col : Nat) (b : Byte) (w : Word) : Instr :=
  match col with
  | 0x0 => .bvc b
  | 0x1 => .eor (.mem (.izy b))
  | 0x2 => .kil 0x52
  | 0x3 => .sre (.izy b)
  | 0x4 => .nopUnofficial 0x54 (.mem (.zpx b))
  | 0x5 => .eor (.mem (.zpx b))
  | 0x6 => .lsr (.mem (.zpx b))
  | 0x7 => .sre (.zpx b)
  | 0x8 => .cli
  | 0x9 => .eor (.mem (.aby w))
  | 0xA => .nopUnofficial 0x5A .imp
  | 0xB => .sre (.aby w)
  | 0xC => .nopUnofficial 0x5C (.mem (.abx w))
  | 0xD => .eor (.mem (.abx w))
  | 0xE => .lsr (.mem (.abx w))
  | _ => .sre (.abx w)

/-- Row 6x of R104. -/
def decodeRow6 (col : Nat) (b : Byte) (w : Word) : Instr :=
  match col with
  | 0x0 => .rts
  | 0x1 => .adc (.mem (.izx b))
  | 0x2 => .kil 0x62
  | 0x3 => .rra (.izx b)
  | 0x4 => .nopUnofficial 0x64 (.mem (.zrp b))
  | 0x5 => .adc (.mem (.zrp b))
  | 0x6 => .ror (.mem (.zrp b))
  | 0x7 => .rra (.zrp b)
  | 0x8 => .pla
  | 0x9 => .adc (.imm b)
  | 0xA => .ror .acc
  | 0xB => .arr b
  | 0xC => .jmp (.ind w)
  | 0xD => .adc (.mem (.abs w))
  | 0xE => .ror (.mem (.abs w))
  | _ => .rra (.abs w)

/-- Row 7x of R104. -/
def decodeRow7 (col : Nat) (b : Byte) (w : Word) : Instr :=
  match col with
  | 0x0 => .bvs b
  | 0x1 => .adc (.mem (.izy b))
  | 0x2 => .kil 0x72
  | 0x3 => .rra (.izy b)
  | 0x4 => .nopUnofficial 0x74 (.mem (.zpx b))
  | 0x5 => .adc (.mem (.zpx b))
  | 0x6 => .ror (.mem (.zpx b))
  | 0x7 => .rra (.zpx b)
  | 0x8 => .sei
  | 0x9 => .adc (.mem (.aby w))
  | 0xA => .nopUnofficial 0x7A .imp
  | 0xB => .rra (.aby w)
  | 0xC => .nopUnofficial 0x7C (.mem (.abx w))
  | 0xD => .adc (.mem (.abx w))
  | 0xE => .ror (.mem (.abx w))
  | _ => .rra (.abx w)

/-- Row 8x of R104. -/
def decodeRow8 (col : Nat) (b : Byte) (w : Word) : Instr :=
  match col with
  | 0x0 => .nopUnofficial 0x80 (.imm b)
  | 0x1 => .sta (.izx b)
  | 0x2 => .nopUnofficial 0x82 (.imm b)
  | 0x3 => .sax (.izx b)
  | 0x4 => .sty (.zrp b)
  | 0x5 => .sta (.zrp b)
  | 0x6 => .stx (.zrp b)
  | 0x7 => .sax (.zrp b)
  | 0x8 => .dey
  | 0x9 => .nopUnofficial 0x89 (.imm b)
  | 0xA => .txa
  | 0xB => .xaa b
  | 0xC => .sty (.abs w)
  | 0xD => .sta (.abs w)
  | 0xE => .stx (.abs w)
  | _ => .sax (.abs w)

/-- Row 9x of R104. -/
def decodeRow9 (col : Nat) (b : Byte) (w : Word) : Instr :=
  match col with
  | 0x0 => .bcc b
  | 0x1 => .sta (.izy b)
  | 0x2 => .kil 0x92
  | 0x3 => .ahx (.izy b)
  | 0x4 => .sty (.zpx b)
  | 0x5 => .sta (.zpx b)
  | 0x6 => .stx (.zpy b)
  | 0x7 => .sax (.zpy b)
  | 0x8 => .tya
  | 0x9 => .sta (.aby w)
  | 0xA => .txs
  | 0xB => .tas w
  | 0xC => .shy w
  | 0xD => .sta (.abx w)
  | 0xE => .shx w
  | _ => .ahx (.aby w)

/-- Row Ax of R104. -/
def decodeRowA (col : Nat) (b : Byte) (w : Word) : Instr :=
  match col with
  | 0x0 => .ldy (.imm b)
  | 0x1 => .lda (.mem (.izx b))
  | 0x2 => .ldx (.imm b)
  | 0x3 => .lax (.mem (.izx b))
  | 0x4 => .ldy (.mem (.zrp b))
  | 0x5 => .lda (.mem (.zrp b))
  | 0x6 => .ldx (.mem (.zrp b))
  | 0x7 => .lax (.mem (.zrp b))
  | 0x8 => .tay
  | 0x9 => .lda (.imm b)
  | 0xA => .tax
  | 0xB => .lax (.imm b)
  | 0xC => .ldy (.mem (.abs w))
  | 0xD => .lda (.mem (.abs w))
  | 0xE => .ldx (.mem (.abs w))
  | _ => .lax (.mem (.abs w))

/-- Row Bx of R104. -/
def decodeRowB (col : Nat) (b : Byte) (w : Word) : Instr :=
  match col with
  | 0x0 => .bcs b
  | 0x1 => .lda (.mem (.izy b))
  | 0x2 => .kil 0xB2
  | 0x3 => .lax (.mem (.izy b))
  | 0x4 => .ldy (.mem (.zpx b))
  | 0x5 => .lda (.mem (.zpx b))
  | 0x6 => .ldx (.mem (.zpy b))
  | 0x7 => .lax (.mem (.zpy b))
  | 0x8 => .clv
  | 0x9 => .lda (.mem (.aby w))
  | 0xA => .tsx
  | 0xB => .las w
  | 0xC => .ldy (.mem (.abx w))
  | 0xD => .lda (.mem (.abx w))
  | 0xE => .ldx (.mem (.aby w))
  | _ => .lax (.mem (.aby w))

/-- Row Cx of R104. -/
def decodeRowC (col : Nat) (b : Byte) (w : Word) : Instr :=
  match col with
  | 0x0 => .cpy (.imm b)
  | 0x1 => .cmp (.mem (.izx b))
  | 0x2 => .nopUnofficial 0xC2 (.imm b)
  | 0x3 => .dcp (.izx b)
  | 0x4 => .cpy (.mem (.zrp b))
  | 0x5 => .cmp (.mem (.zrp b))
  | 0x6 => .dec (.zrp b)
  | 0x7 => .dcp (.zrp b)
  | 0x8 => .iny
  | 0x9 => .cmp (.imm b)
  | 0xA => .dex
  | 0xB => .axs b
  | 0xC => .cpy (.mem (.abs w))
  | 0xD => .cmp (.mem (.abs w))
  | 0xE => .dec (.abs w)
  | _ => .dcp (.abs w)

/-- Row Dx of R104. -/
def decodeRowD (col : Nat) (b : Byte) (w : Word) : Instr :=
  match col with
  | 0x0 => .bne b
  | 0x1 => .cmp (.mem (.izy b))
  | 0x2 => .kil 0xD2
  | 0x3 => .dcp (.izy b)
  | 0x4 => .nopUnofficial 0xD4 (.mem (.zpx b))
  | 0x5 => .cmp (.mem (.zpx b))
  | 0x6 => .dec (.zpx b)
  | 0x7 => .dcp (.zpx b)
  | 0x8 => .cld
  | 0x9 => .cmp (.mem (.aby w))
  | 0xA => .nopUnofficial 0xDA .imp
  | 0xB => .dcp (.aby w)
  | 0xC => .nopUnofficial 0xDC (.mem (.abx w))
  | 0xD => .cmp (.mem (.abx w))
  | 0xE => .dec (.abx w)
  | _ => .dcp (.abx w)

/-- Row Ex of R104. -/
def decodeRowE (col : Nat) (b : Byte) (w : Word) : Instr :=
  match col with
  | 0x0 => .cpx (.imm b)
  | 0x1 => .sbc (.mem (.izx b))
  | 0x2 => .nopUnofficial 0xE2 (.imm b)
  | 0x3 => .isc (.izx b)
  | 0x4 => .cpx (.mem (.zrp b))
  | 0x5 => .sbc (.mem (.zrp b))
  | 0x6 => .inc (.zrp b)
  | 0x7 => .isc (.zrp b)
  | 0x8 => .inx
  | 0x9 => .sbc (.imm b)
  | 0xA => .nop
  | 0xB => .usbc b
  | 0xC => .cpx (.mem (.abs w))
  | 0xD => .sbc (.mem (.abs w))
  | 0xE => .inc (.abs w)
  | _ => .isc (.abs w)

/-- Row Fx of R104. -/
def decodeRowF (col : Nat) (b : Byte) (w : Word) : Instr :=
  match col with
  | 0x0 => .beq b
  | 0x1 => .sbc (.mem (.izy b))
  | 0x2 => .kil 0xF2
  | 0x3 => .isc (.izy b)
  | 0x4 => .nopUnofficial 0xF4 (.mem (.zpx b))
  | 0x5 => .sbc (.mem (.zpx b))
  | 0x6 => .inc (.zpx b)
  | 0x7 => .isc (.zpx b)
  | 0x8 => .sed
  | 0x9 => .sbc (.mem (.aby w))
  | 0xA => .nopUnofficial 0xFA .imp
  | 0xB => .isc (.aby w)
  | 0xC => .nopUnofficial 0xFC (.mem (.abx w))
  | 0xD => .sbc (.mem (.abx w))
  | 0xE => .inc (.abx w)
  | _ => .isc (.abx w)

/-- The decode table (R93, R104): the whole opcode byte indexes it, high nibble the row, low nibble the column. `b` is operand byte 1 and
`w` the 16-bit operand (R90); a cell uses what its mode fetches. -/
def decodeFields (op : Byte) (b : Byte) (w : Word) : Instr :=
  match op.toNat / 16 with
  | 0x0 => decodeRow0 (op.toNat % 16) b w
  | 0x1 => decodeRow1 (op.toNat % 16) b w
  | 0x2 => decodeRow2 (op.toNat % 16) b w
  | 0x3 => decodeRow3 (op.toNat % 16) b w
  | 0x4 => decodeRow4 (op.toNat % 16) b w
  | 0x5 => decodeRow5 (op.toNat % 16) b w
  | 0x6 => decodeRow6 (op.toNat % 16) b w
  | 0x7 => decodeRow7 (op.toNat % 16) b w
  | 0x8 => decodeRow8 (op.toNat % 16) b w
  | 0x9 => decodeRow9 (op.toNat % 16) b w
  | 0xA => decodeRowA (op.toNat % 16) b w
  | 0xB => decodeRowB (op.toNat % 16) b w
  | 0xC => decodeRowC (op.toNat % 16) b w
  | 0xD => decodeRowD (op.toNat % 16) b w
  | 0xE => decodeRowE (op.toNat % 16) b w
  | _ => decodeRowF (op.toNat % 16) b w

/-- The length an opcode byte alone determines (R108). -/
def opcodeLength (op : Byte) : Nat :=
  (decodeFields op 0 0).length

/-- The unofficial opcode bytes: the starred cells of R104. -/
def opcodeUnofficial (op : Byte) : Bool :=
  !(decodeFields op 0 0).official

/-- The only way decoding can stop: the bytes end before the instruction does. No byte is illegal (R93, R107). -/
inductive DecodeError where
  /-- There is no opcode byte. Raised by `decode`; safe. -/
  | noOpcode
  /-- The operand bytes of `op` are not all there. Raised by `decode`; safe. -/
  | truncated (op : Byte)
  deriving DecidableEq, Repr

/-- Reads one instruction off a list of bytes and returns the bytes after it (R90, R91). Operands are little-endian (R58, R90). -/
def decode : List Byte → Except DecodeError (Instr × List Byte)
  | [] => .error .noOpcode
  | op :: rest =>
    match opcodeLength op, rest with
    | 1, rest => .ok (decodeFields op 0 0, rest)
    | 2, b :: rest => .ok (decodeFields op b 0, rest)
    | 3, lo :: hi :: rest => .ok (decodeFields op lo (hi ++ lo), rest)
    | _, _ => .error (.truncated op)

/-- The opcode byte of a memory operand among SLO's seven modes, in the order ZRP ZPX ABS ABX ABY IZX IZY. -/
def MemMode.pick7 (zrp zpx abs abx aby izx izy : Byte) : MemMode → Option Byte
  | .zrp _ => some zrp
  | .zpx _ => some zpx
  | .zpy _ => none
  | .abs _ => some abs
  | .abx _ => some abx
  | .aby _ => some aby
  | .izx _ => some izx
  | .izy _ => some izy

/-- The opcode byte of a memory operand among INC's four modes, in the order ZRP ZPX ABS ABX. -/
def MemMode.pick4 (zrp zpx abs abx : Byte) : MemMode → Option Byte
  | .zrp _ => some zrp
  | .zpx _ => some zpx
  | .abs _ => some abs
  | .abx _ => some abx
  | .zpy _ | .aby _ | .izx _ | .izy _ => none

/-- The opcode byte of a source operand among LDA's eight modes, in the order IMM ZRP ZPX ABS ABX ABY IZX IZY. -/
def Source.pick8 (imm zrp zpx abs abx aby izx izy : Byte) : Source → Option Byte
  | .imm _ => some imm
  | .mem m => m.pick7 zrp zpx abs abx aby izx izy

/-- The opcode byte, from the "Encodings" line of each instruction's rule (R130 to R223) and R240 to R242; none where the instruction has no such
mode. -/
def Instr.opcode : Instr → Option Byte
  | .lda s => s.pick8 0xA9 0xA5 0xB5 0xAD 0xBD 0xB9 0xA1 0xB1
  | .ldx (.imm _) => some 0xA2
  | .ldx (.mem (.zrp _)) => some 0xA6
  | .ldx (.mem (.zpy _)) => some 0xB6
  | .ldx (.mem (.abs _)) => some 0xAE
  | .ldx (.mem (.aby _)) => some 0xBE
  | .ldx _ => none
  | .ldy (.imm _) => some 0xA0
  | .ldy (.mem (.zrp _)) => some 0xA4
  | .ldy (.mem (.zpx _)) => some 0xB4
  | .ldy (.mem (.abs _)) => some 0xAC
  | .ldy (.mem (.abx _)) => some 0xBC
  | .ldy _ => none
  | .sta m => m.pick7 0x85 0x95 0x8D 0x9D 0x99 0x81 0x91
  | .stx (.zrp _) => some 0x86
  | .stx (.zpy _) => some 0x96
  | .stx (.abs _) => some 0x8E
  | .stx _ => none
  | .sty (.zrp _) => some 0x84
  | .sty (.zpx _) => some 0x94
  | .sty (.abs _) => some 0x8C
  | .sty _ => none
  | .tax => some 0xAA
  | .tay => some 0xA8
  | .txa => some 0x8A
  | .tya => some 0x98
  | .tsx => some 0xBA
  | .txs => some 0x9A
  | .adc s => s.pick8 0x69 0x65 0x75 0x6D 0x7D 0x79 0x61 0x71
  | .sbc s => s.pick8 0xE9 0xE5 0xF5 0xED 0xFD 0xF9 0xE1 0xF1
  | .and s => s.pick8 0x29 0x25 0x35 0x2D 0x3D 0x39 0x21 0x31
  | .ora s => s.pick8 0x09 0x05 0x15 0x0D 0x1D 0x19 0x01 0x11
  | .eor s => s.pick8 0x49 0x45 0x55 0x4D 0x5D 0x59 0x41 0x51
  | .bit (.zrp _) => some 0x24
  | .bit (.abs _) => some 0x2C
  | .bit _ => none
  | .cmp s => s.pick8 0xC9 0xC5 0xD5 0xCD 0xDD 0xD9 0xC1 0xD1
  | .cpx (.imm _) => some 0xE0
  | .cpx (.mem (.zrp _)) => some 0xE4
  | .cpx (.mem (.abs _)) => some 0xEC
  | .cpx _ => none
  | .cpy (.imm _) => some 0xC0
  | .cpy (.mem (.zrp _)) => some 0xC4
  | .cpy (.mem (.abs _)) => some 0xCC
  | .cpy _ => none
  | .inc m => m.pick4 0xE6 0xF6 0xEE 0xFE
  | .dec m => m.pick4 0xC6 0xD6 0xCE 0xDE
  | .inx => some 0xE8
  | .iny => some 0xC8
  | .dex => some 0xCA
  | .dey => some 0x88
  | .asl .acc => some 0x0A
  | .asl (.mem m) => m.pick4 0x06 0x16 0x0E 0x1E
  | .lsr .acc => some 0x4A
  | .lsr (.mem m) => m.pick4 0x46 0x56 0x4E 0x5E
  | .rol .acc => some 0x2A
  | .rol (.mem m) => m.pick4 0x26 0x36 0x2E 0x3E
  | .ror .acc => some 0x6A
  | .ror (.mem m) => m.pick4 0x66 0x76 0x6E 0x7E
  | .jmp (.abs _) => some 0x4C
  | .jmp (.ind _) => some 0x6C
  | .jsr _ => some 0x20
  | .rts => some 0x60
  | .bpl _ => some 0x10
  | .bmi _ => some 0x30
  | .bvc _ => some 0x50
  | .bvs _ => some 0x70
  | .bcc _ => some 0x90
  | .bcs _ => some 0xB0
  | .bne _ => some 0xD0
  | .beq _ => some 0xF0
  | .pha => some 0x48
  | .pla => some 0x68
  | .php => some 0x08
  | .plp => some 0x28
  | .clc => some 0x18
  | .sec => some 0x38
  | .cli => some 0x58
  | .sei => some 0x78
  | .clv => some 0xB8
  | .nop => some 0xEA
  | .brk => some 0x00
  | .sed => some 0xF8
  | .cld => some 0xD8
  | .rti => some 0x40
  | .kil op => if kilBytes.contains op then some op else none
  | .nopUnofficial op operand => if operand.mode.nopBytes.contains op then some op else none
  | .slo m => m.pick7 0x07 0x17 0x0F 0x1F 0x1B 0x03 0x13
  | .rla m => m.pick7 0x27 0x37 0x2F 0x3F 0x3B 0x23 0x33
  | .sre m => m.pick7 0x47 0x57 0x4F 0x5F 0x5B 0x43 0x53
  | .rra m => m.pick7 0x67 0x77 0x6F 0x7F 0x7B 0x63 0x73
  | .sax (.zrp _) => some 0x87
  | .sax (.zpy _) => some 0x97
  | .sax (.abs _) => some 0x8F
  | .sax (.izx _) => some 0x83
  | .sax _ => none
  | .lax (.imm _) => some 0xAB
  | .lax (.mem (.zrp _)) => some 0xA7
  | .lax (.mem (.zpy _)) => some 0xB7
  | .lax (.mem (.abs _)) => some 0xAF
  | .lax (.mem (.aby _)) => some 0xBF
  | .lax (.mem (.izx _)) => some 0xA3
  | .lax (.mem (.izy _)) => some 0xB3
  | .lax _ => none
  | .dcp m => m.pick7 0xC7 0xD7 0xCF 0xDF 0xDB 0xC3 0xD3
  | .isc m => m.pick7 0xE7 0xF7 0xEF 0xFF 0xFB 0xE3 0xF3
  | .anc op _ => if ancCells.contains op then some op else none
  | .alr _ => some 0x4B
  | .arr _ => some 0x6B
  | .xaa _ => some 0x8B
  | .axs _ => some 0xCB
  | .ahx (.aby _) => some 0x9F
  | .ahx (.izy _) => some 0x93
  | .ahx _ => none
  | .tas _ => some 0x9B
  | .shy _ => some 0x9C
  | .shx _ => some 0x9E
  | .las _ => some 0xBB
  | .usbc _ => some 0xEB

/-- `lo8` of R11. -/
def lo8 (w : Word) : Byte :=
  w.extractLsb' 0 8

/-- `hi8` of R11. -/
def hi8 (w : Word) : Byte :=
  w.extractLsb' 8 8

/-- A 16-bit operand, low byte first (R90). -/
def wordBytes (w : Word) : List Byte :=
  [lo8 w, hi8 w]

/-- The operand bytes of a memory operand (R90). -/
def MemMode.bytes : MemMode → List Byte
  | .zrp zp | .zpx zp | .zpy zp | .izx zp | .izy zp => [zp]
  | .abs addr | .abx addr | .aby addr => wordBytes addr

/-- The operand bytes of a source operand. -/
def Source.bytes : Source → List Byte
  | .imm b => [b]
  | .mem m => m.bytes

/-- The operand bytes of an instruction (R90). -/
def Instr.operandBytes : Instr → List Byte
  | .lda s | .ldx s | .ldy s | .adc s | .sbc s | .and s | .ora s | .eor s | .cmp s | .cpx s | .cpy s | .lax s => s.bytes
  | .sta m | .stx m | .sty m | .bit m | .inc m | .dec m | .slo m | .rla m | .sre m | .rra m | .sax m | .dcp m | .isc m
  | .ahx m => m.bytes
  | .asl (.mem m) | .lsr (.mem m) | .rol (.mem m) | .ror (.mem m) => m.bytes
  | .jmp (.abs w) | .jmp (.ind w) | .jsr w | .tas w | .shy w | .shx w | .las w => wordBytes w
  | .bpl b | .bmi b | .bvc b | .bvs b | .bcc b | .bcs b | .bne b | .beq b => [b]
  | .nopUnofficial _ (.imm b) => [b]
  | .nopUnofficial _ (.mem m) => m.bytes
  | .anc _ b | .alr b | .arr b | .xaa b | .axs b | .usbc b => [b]
  | .asl .acc | .lsr .acc | .rol .acc | .ror .acc | .nopUnofficial _ .imp
  | .tax | .tay | .txa | .tya | .tsx | .txs | .inx | .iny | .dex | .dey | .rts | .pha | .pla | .php | .plp
  | .clc | .sec | .cli | .sei | .clv | .nop | .brk | .sed | .cld | .rti | .kil _ => []

/-- The bytes of an instruction, opcode first; none where the table has no cell for it. -/
def encode (i : Instr) : Option (List Byte) :=
  i.opcode.map (· :: i.operandBytes)

/-- Byte `k` of a table word: bits `8 * k + 7` to `8 * k`, with every bit from `nbits` up taken as 0. -/
def tableByte (nbits w k : Nat) : Byte :=
  BitVec.ofNat 8 (w % 2 ^ nbits / 256 ^ k)

/-- The instruction the decoder reads from a word numbered as spec/opcode_table.json numbers it: byte 0 is the opcode, later bytes follow. -/
def decodeTableWord (nbits w : Nat) : Option Instr :=
  match decode [tableByte nbits w 0, tableByte nbits w 1, tableByte nbits w 2] with
  | .ok (i, _) => some i
  | .error _ => none

end Sys2Proof
end

