-- ==== Sys2Proof/Machine/Memory.lean ====
section
/-!
DEFINITION. One memory of the machine: a list of (address, byte) cells in one canonical form (addresses strictly rising, no listed 0), in
which an unlisted address reads 0 (R42: "all 0 in the reference simulator"; log 2).
-/

namespace Sys2Proof.Machine

/-- A memory. The machine has several: ram, ciram, palette, chr_ram (R39) and the ROM images prg and chr (R8). -/
abbrev Memory := List Host.Cell

/-- The byte at index `k`; an unlisted index reads 0 (log 2). -/
def Memory.read : Memory → Nat → Byte
  | [], _ => 0#8
  | (a, v) :: m, k => if k = a then v else Memory.read m k

/-- Writes the byte at index `k`, keeping the canonical form: writing 0 removes the entry. -/
def Memory.write : Memory → Nat → Byte → Memory
  | [], k, v => if v = 0#8 then [] else [(k, v)]
  | (a, x) :: m, k, v =>
    if k < a then if v = 0#8 then (a, x) :: m else (k, v) :: (a, x) :: m
    else if k = a then if v = 0#8 then m else (k, v) :: m
    else (a, x) :: Memory.write m k v

/-- The canonical form: addresses strictly rising, no listed byte equal to what an unlisted address reads as. -/
def Memory.wf : Memory → Bool
  | [] => true
  | (a, v) :: m => v != 0#8 && m.all (fun c => decide (a < c.1)) && Memory.wf m

/-- Every listed index is below the size of the memory. -/
def Memory.below (n : Nat) (m : Memory) : Bool :=
  m.all fun c => decide (c.1 < n)

/-- The memory holding `bytes` from index `base` on. -/
def Memory.ofBytes (base : Nat) : List Byte → Memory
  | [] => []
  | v :: bytes => if v = 0#8 then Memory.ofBytes (base + 1) bytes else (base, v) :: Memory.ofBytes (base + 1) bytes

end Sys2Proof.Machine
end

