-- ==== Sys2Proof/Machine/State.lean ====
section
/-!
DEFINITION. Everything the spec gives the machine, as plain data (10_state.md): the CPU, the PPU timing engine, the memories, the session's
configuration, and the host's choice of ticks; and the state at session construction, the only reset (R42, R320).
-/

namespace Sys2Proof.Machine

/-- The two agents of R7. -/
inductive Agent where
  | cpu
  | ppu
  deriving DecidableEq, Repr

/-- The nametable-mirroring flag (R8): 0 is horizontal, 1 vertical (R71). -/
inductive Mirroring where
  | horizontal
  | vertical
  deriving DecidableEq, Repr

/-- The length of `prg`: 16384 or 32768 bytes (R8, D20). -/
inductive PrgSize where
  | k16
  | k32
  deriving DecidableEq, Repr

/-- The configuration the cartridge loader supplies (R8). It never changes during a session. -/
structure Cartridge where
  prgSize : PrgSize
  /-- The PRG ROM image, indexed from 0. -/
  prg : Memory
  /-- The 8192-byte CHR ROM image; none when `chr` is empty and the pattern range is CHR RAM (R70). -/
  chrRom : Option Memory
  mirroring : Mirroring
  deriving DecidableEq, Repr

/-- The status flags P: "Each is one stored bit" (R22). -/
structure Status where
  c : Bool
  z : Bool
  i : Bool
  b : Bool
  v : Bool
  n : Bool
  deriving DecidableEq, Repr

/-- The CPU register file (R20) and the CPU control state (R35, R36). -/
structure Cpu where
  a : Byte
  x : Byte
  y : Byte
  sp : Byte
  pc : Word
  p : Status
  halted : Bool
  nmiPending : Bool
  deriving DecidableEq, Repr

/-- The PPU timing engine (R38). -/
structure Ppu where
  scanline : Nat
  cycle : Nat
  oddFrame : Bool
  v : Loopy
  t : Loopy
  x : BitVec 3
  w : Bool
  vblank : Bool
  sprite0Hit : Bool
  spriteOverflow : Bool
  ctrl : Byte
  mask : Byte
  oamAddr : Byte
  latch : Byte
  /-- Present only when `PPUDATA_READ_BUFFERED` is true; otherwise it keeps its reset value and nothing reads it. -/
  readBuffer : Byte
  deriving DecidableEq, Repr

/-- The whole machine. `schedule` and `ppuOwed` are the MODEL's own fields for the host's choice of ticks (R300, R301; log 5): the agents the
host has chosen, next first, and, once that list is empty, the PPU ticks the reference scheduler still owes before the next CPU tick. -/
structure State where
  cart : Cartridge
  params : Params
  cpu : Cpu
  ppu : Ppu
  ram : Memory
  ciram : Memory
  palette : Memory
  chrRam : Memory
  schedule : List Agent
  ppuOwed : Nat
  deriving DecidableEq, Repr

/-- There is no fault: "The CPU has no synchronous exceptions" (R250) and "no rule raises an address fault" (R19). Halted is a state (R35). -/
inductive Fault where
  deriving DecidableEq, Repr

/-- Why the model has no next state. -/
inductive Refusal where
  /-- An instruction without a meaning yet. Raised only by an arm of `exec`; safe. No arm raises it. -/
  | notModelled (mnemonic : String)
  /-- The decoder stopped on the fetched bytes. Raised by the CPU tick; safe. It never happens: decode is total (R93) and the tick fetches three
  bytes. -/
  | undecoded (e : DecodeError)
  /-- A configuration R323 refuses: `prg` is not 16384 or 32768 bytes, or `chr` not 0 or 8192. Raised by `State.construct`, never by a step; safe. -/
  | badCartridge (prgBytes chrBytes : Nat)
  deriving DecidableEq, Repr

/-- The answer of a meaning and of a step. -/
abbrev Answer := Host.Outcome State Fault Refusal

/-- The launch values of R42: what the source leaves open at session construction. Each memory is given as its bytes from index 0; bytes beyond
the memory's size are ignored and missing ones are 0. -/
structure Launch where
  a : Byte
  x : Byte
  y : Byte
  p : Status
  ram : List Byte
  ciram : List Byte
  palette : List Byte
  chrRam : List Byte
  deriving DecidableEq, Repr

/-- All flags 0. -/
def Status.zero : Status where
  c := false
  z := false
  i := false
  b := false
  v := false
  n := false

/-- The reference simulator's launch values: all 0 (R42; logs 1 and 2). -/
def Launch.reference : Launch where
  a := 0
  x := 0
  y := 0
  p := Status.zero
  ram := []
  ciram := []
  palette := []
  chrRam := []

/-- The PPU at session construction: every field 0 (R42, D22). -/
def Ppu.initial : Ppu where
  scanline := 0
  cycle := 0
  oddFrame := false
  v := 0
  t := 0
  x := 0
  w := false
  vblank := false
  sprite0Hit := false
  spriteOverflow := false
  ctrl := 0
  mask := 0
  oamAddr := 0
  latch := 0
  readBuffer := 0

/-- Session construction from an accepted configuration (R42, R320): PC = $8000, SP = $FF, and the launch values where the source is silent. -/
def State.launch (cart : Cartridge) (params : Params) (l : Launch) : State where
  cart := cart
  params := params
  cpu :=
    { a := l.a, x := l.x, y := l.y, sp := 0xFF, pc := 0x8000, p := l.p, halted := false, nmiPending := false }
  ppu := Ppu.initial
  ram := Memory.ofBytes 0 (l.ram.take 0x800)
  ciram := Memory.ofBytes 0 (l.ciram.take 0x800)
  palette := Memory.ofBytes 0 (l.palette.take 0x20)
  chrRam := if cart.chrRom.isSome then [] else Memory.ofBytes 0 (l.chrRam.take 0x2000)
  schedule := []
  ppuOwed := 0

/-- The cartridge of `State.reset`: 16384 bytes of PRG with nothing loaded, no CHR, mirroring 0 (the conventions of 95_test_vectors.md; log 3). -/
def Cartridge.blank : Cartridge where
  prgSize := .k16
  prg := []
  chrRom := none
  mirroring := .horizontal

/-- The machine right after reset: session construction with R10's defaults and the reference launch values. -/
def State.reset : State :=
  State.launch Cartridge.blank Params.default Launch.reference

end Sys2Proof.Machine
end

