-- ==== Sys2Proof/Machine/Registers.lean ====
section
/-!
DEFINITION. The one home of each register: how it is written, and the status byte (R29, R30).
-/

namespace Sys2Proof.Machine

/-- `A <- v`. -/
def State.setA (s : State) (v : Byte) : State :=
  { s with cpu := { s.cpu with a := v } }

/-- `X <- v`. -/
def State.setX (s : State) (v : Byte) : State :=
  { s with cpu := { s.cpu with x := v } }

/-- `Y <- v`. -/
def State.setY (s : State) (v : Byte) : State :=
  { s with cpu := { s.cpu with y := v } }

/-- `SP <- v`. -/
def State.setSP (s : State) (v : Byte) : State :=
  { s with cpu := { s.cpu with sp := v } }

/-- `PC <- v`. -/
def State.setPC (s : State) (v : Word) : State :=
  { s with cpu := { s.cpu with pc := v } }

/-- Writes all six flags. -/
def State.setP (s : State) (p : Status) : State :=
  { s with cpu := { s.cpu with p := p } }

/-- `halted <- 1`: `raise Halted` (R251). -/
def State.halt (s : State) : State :=
  { s with cpu := { s.cpu with halted := true } }

/-- `nmi_pending <- b` (R36). -/
def State.setNmiPending (s : State) (b : Bool) : State :=
  { s with cpu := { s.cpu with nmiPending := b } }

/-- Replaces the PPU's registers. -/
def State.setPpu (s : State) (p : Ppu) : State :=
  { s with ppu := p }

/-- Replaces the internal RAM. -/
def State.setRam (s : State) (m : Memory) : State :=
  { s with ram := m }

/-- Replaces the nametable RAM. -/
def State.setCiram (s : State) (m : Memory) : State :=
  { s with ciram := m }

/-- Replaces the palette RAM. -/
def State.setPalette (s : State) (m : Memory) : State :=
  { s with palette := m }

/-- Replaces the CHR RAM. -/
def State.setChrRam (s : State) (m : Memory) : State :=
  { s with chrRam := m }

/-- `PC <- (PC + n) mod 2^16`: the fetches of an instruction of `n` bytes (R32, R92). -/
def State.advance (s : State) (n : Nat) : State :=
  s.setPC (s.cpu.pc + BitVec.ofNat 16 n)

/-- `setZN(r)` on the flags: Z is r = 0, N is bit 7 of r (R14, R24). -/
def Status.withZN (p : Status) (r : Byte) : Status :=
  { p with z := r == 0, n := r.msb }

/-- `setZN(r)` (R14). -/
def State.setZN (s : State) (r : Byte) : State :=
  s.setP (s.cpu.p.withZN r)

/-- The status byte: N V 0 B 0 I Z C, bit 7 first (R29). -/
def Status.serialize (p : Status) : Byte :=
  BitVec.ofBool p.n ++ BitVec.ofBool p.v ++ 0#1 ++ BitVec.ofBool p.b ++ 0#1 ++ BitVec.ofBool p.i ++ BitVec.ofBool p.z
    ++ BitVec.ofBool p.c

/-- The flags a status byte holds; bits 3 and 5 are ignored (R30). -/
def Status.deserialize (v : Byte) : Status where
  c := v.getLsbD 0
  z := v.getLsbD 1
  i := v.getLsbD 2
  b := v.getLsbD 4
  v := v.getLsbD 6
  n := v.getLsbD 7

end Sys2Proof.Machine
end

