-- ==== Sys2Proof/Machine/Flags.lean ====
section
/-!
DEFINITION. The ALU of 41_arithmetic_logic.md and its flags: the add core (R146), the compare core (R147) and the carry of the shifts (R180 to
R183).
-/

namespace Sys2Proof.Machine

/-- What `AddCore` gives: the result, the carry and the overflow (R146). -/
structure AddResult where
  r : Byte
  c : Bool
  v : Bool
  deriving DecidableEq, Repr

/-- 1 iff at least two of the three bits are 1 (R11). -/
def majority (a b c : Bool) : Bool :=
  (a && b) || (a && c) || (b && c)

/-- `AddCore(a, b, cin)` (R146). -/
def addCore (rule : CarryRule) (a b : Byte) (cin : Bool) : AddResult :=
  let sum := a.toNat + b.toNat + cin.toNat
  let r := BitVec.ofNat 8 sum
  { r := r
    c := match rule with
      | .sum9 => decide (255 < sum)
      | .majority => majority a.msb b.msb cin
    v := (a.msb == b.msb) && (r.msb != a.msb) }

/-- The flags after ADC or SBC: C, V, Z and N (R150, R151). -/
def Status.withAdd (p : Status) (q : AddResult) : Status :=
  { p with c := q.c, v := q.v, z := q.r == 0, n := q.r.msb }

/-- The flags after `Compare(reg, M)`: C is reg ≥ M unsigned, Z is reg = M, N is bit 7 of the difference (R147). -/
def Status.withCompare (p : Status) (reg m : Byte) : Status :=
  { p with c := decide (m.toNat ≤ reg.toNat), z := reg == m, n := (reg - m).msb }

/-- The flags after BIT: Z from A AND M, N and V from bits 7 and 6 of M (R155). -/
def Status.withBit (p : Status) (a m : Byte) : Status :=
  { p with z := (a &&& m) == 0, n := m.getLsbD 7, v := m.getLsbD 6 }

/-- The flags after a shift: C the bit shifted out, Z and N of the result (R180 to R183). -/
def Status.withShift (p : Status) (out : Bool) (r : Byte) : Status :=
  { p with c := out, z := r == 0, n := r.msb }

/-- ASL's result (R180). -/
def shiftLeft (m : Byte) : Byte :=
  m <<< 1

/-- LSR's result (R181). -/
def shiftRight (m : Byte) : Byte :=
  m >>> 1

/-- ROL's result: the old carry enters bit 0 (R182). -/
def rotateLeft (c : Bool) (m : Byte) : Byte :=
  (m <<< 1) ||| (BitVec.ofBool c).setWidth 8

/-- ROR's result: the old carry enters bit 7 (R183). -/
def rotateRight (c : Bool) (m : Byte) : Byte :=
  (m >>> 1) ||| ((BitVec.ofBool c).setWidth 8 <<< 7)

end Sys2Proof.Machine
end

