-- ==== Sys2Proof/Machine/Video.lean ====
section
/-!
DEFINITION. The PPU as the CPU sees it: the fields of v and t (R270), VideoMemory (20_memory.md R69 to R73) and the eight-register MMIO port
(60_exceptions.md R284 to R296).
-/

namespace Sys2Proof.Machine

/-- Coarse X, bits 4:0 of a loopy register (R270). -/
def coarseX (v : Loopy) : BitVec 5 :=
  v.extractLsb' 0 5

/-- Coarse Y, bits 9:5 (R270). -/
def coarseY (v : Loopy) : BitVec 5 :=
  v.extractLsb' 5 5

/-- Nametable select, bits 11:10 (R270). -/
def nametable (v : Loopy) : BitVec 2 :=
  v.extractLsb' 10 2

/-- Fine Y, bits 14:12 (R270). -/
def fineY (v : Loopy) : BitVec 3 :=
  v.extractLsb' 12 3

/-- A loopy register from its four fields (R270). -/
def loopy (fy : BitVec 3) (nt : BitVec 2) (cy cx : BitVec 5) : Loopy :=
  fy ++ nt ++ cy ++ cx

/-- The cell of VideoMemory an address reaches, each with its index (R69 to R72). -/
inductive VideoCell where
  /-- The pattern range with CHR ROM: readable, writes have no effect (R70). -/
  | chrRom (k : Nat)
  /-- The pattern range with CHR RAM (R70). -/
  | chrRam (k : Nat)
  /-- A nametable cell (R71). -/
  | ciram (k : Nat)
  /-- A palette cell (R72). -/
  | palette (k : Nat)
  deriving DecidableEq, Repr

/-- The ciram index of a nametable address $2000 to $3EFF (R71). -/
def ciramIndex (mirroring : Mirroring) (a : Nat) : Nat :=
  let o := (a - 0x2000) % 0x1000
  let n := o / 0x400
  match mirroring with
  | .horizontal => n / 2 * 0x400 + o % 0x400
  | .vertical => n % 2 * 0x400 + o % 0x400

/-- The palette index of an address $3F00 to $3FFF: $10, $14, $18 and $1C are $00, $04, $08 and $0C (R72). -/
def paletteIndex (a : Nat) : Nat :=
  let p := a % 0x20
  if p = 0x10 ∨ p = 0x14 ∨ p = 0x18 ∨ p = 0x1C then p - 0x10 else p

/-- "16KB space, addresses taken mod 0x4000 ... plain range dispatch" (R69). -/
def videoCell (cart : Cartridge) (addr : Nat) : VideoCell :=
  let a := addr % 0x4000
  if a < 0x2000 then if cart.chrRom.isSome then .chrRom a else .chrRam a
  else if a < 0x3F00 then .ciram (ciramIndex cart.mirroring a)
  else .palette (paletteIndex a)

/-- `VRead(a)` (R73). -/
def videoRead (s : State) (addr : Nat) : Byte :=
  match videoCell s.cart addr with
  | .chrRom k => (s.cart.chrRom.getD []).read k
  | .chrRam k => s.chrRam.read k
  | .ciram k => s.ciram.read k
  | .palette k => s.palette.read k

/-- `VWrite(a, d)` (R73): nothing happens for CHR ROM. -/
def videoWrite (s : State) (addr : Nat) (d : Byte) : State :=
  match videoCell s.cart addr with
  | .chrRom _ => s
  | .chrRam k => s.setChrRam (s.chrRam.write k d)
  | .ciram k => s.setCiram (s.ciram.write k d)
  | .palette k => s.setPalette (s.palette.write k d)

/-- The status byte's own bits: vblank, sprite0Hit and spriteOverflow in bits 7, 6 and 5 (R285). -/
def Ppu.statusByte (p : Ppu) : Byte :=
  BitVec.ofBool p.vblank ++ BitVec.ofBool p.sprite0Hit ++ BitVec.ofBool p.spriteOverflow ++ 0#5

/-- What register 7 adds to v after an access: 32 when ctrl[2] is 1, else 1 (R296). -/
def Ppu.increment (p : Ppu) : Loopy :=
  if p.ctrl.getLsbD 2 then 32 else 1

/-- Register 2 read (R289). vblank is not cleared. -/
def readStatus (s : State) : Byte × State :=
  let r := s.ppu.statusByte ||| (s.ppu.latch &&& 0x1F)
  (r, s.setPpu { s.ppu with w := false, sprite0Hit := false, spriteOverflow := false, latch := r })

/-- The byte register 7 returns and the read buffer it leaves (R294). -/
def dataFetch (s : State) : Byte × Byte :=
  let a := s.ppu.v.toNat
  if s.params.ppudataReadBuffered then
    if a % 0x4000 < 0x3F00 then (s.ppu.readBuffer, videoRead s a)
    else (videoRead s a, videoRead s (a - 0x1000))
  else (videoRead s a, s.ppu.readBuffer)

/-- Register 7 read (R294). -/
def readData (s : State) : Byte × State :=
  let f := dataFetch s
  (f.1, s.setPpu { s.ppu with v := s.ppu.v + s.ppu.increment, latch := f.1, readBuffer := f.2 })

/-- `PpuRegRead(n)` (R287): the write-only and unimplemented registers return the latch and change nothing (R288). -/
def ppuRegRead (n : Nat) (s : State) : Byte × State :=
  match n with
  | 2 => readStatus s
  | 7 => readData s
  | _ => (s.ppu.latch, s)

/-- Register 0 write (R291): t[11:10] gets the nametable select, and a 0-to-1 change of ctrl[7] during vblank signals an NMI (R293). -/
def writeControl (d : Byte) (s : State) : State :=
  let t := s.ppu.t
  let s' := s.setPpu { s.ppu with ctrl := d, t := loopy (fineY t) (d.extractLsb' 0 2) (coarseY t) (coarseX t) }
  if !s.ppu.ctrl.getLsbD 7 && d.getLsbD 7 && s.ppu.vblank then s'.setNmiPending true else s'

/-- Register 5 write (R295): the first write sets coarse and fine X, the second coarse and fine Y. -/
def writeScroll (d : Byte) (s : State) : State :=
  let t := s.ppu.t
  if s.ppu.w then
    s.setPpu { s.ppu with t := loopy (d.extractLsb' 0 3) (nametable t) (d.extractLsb' 3 5) (coarseX t), w := false }
  else
    s.setPpu
      { s.ppu with
        t := loopy (fineY t) (nametable t) (coarseY t) (d.extractLsb' 3 5), x := d.extractLsb' 0 3, w := true }

/-- Register 6 write (R295, C3): the first write sets t[13:8] and clears t[14], the second sets t[7:0] and copies t into v. -/
def writeAddress (d : Byte) (s : State) : State :=
  let t := s.ppu.t
  if s.ppu.w then
    let t' : Loopy := t.extractLsb' 8 7 ++ d
    s.setPpu { s.ppu with t := t', v := t', w := false }
  else
    s.setPpu { s.ppu with t := 0#1 ++ d.extractLsb' 0 6 ++ t.extractLsb' 0 8, w := true }

/-- Register 7 write (R294). -/
def writeData (d : Byte) (s : State) : State :=
  let s' := videoWrite s s.ppu.v.toNat d
  s'.setPpu { s'.ppu with v := s'.ppu.v + s'.ppu.increment }

/-- What a write does beyond the latch, by register (R290). -/
def ppuRegEffect (n : Nat) (d : Byte) (s : State) : State :=
  match n with
  | 0 => writeControl d s
  | 1 => s.setPpu { s.ppu with mask := d }
  | 3 => s.setPpu { s.ppu with oamAddr := d }
  | 5 => writeScroll d s
  | 6 => writeAddress d s
  | 7 => writeData d s
  | _ => s

/-- `PpuRegWrite(n, d)` "first sets latch <- d, then acts by register" (R290). -/
def ppuRegWrite (n : Nat) (d : Byte) (s : State) : State :=
  ppuRegEffect n d (s.setPpu { s.ppu with latch := d })

end Sys2Proof.Machine
end

