-- ==== Sys2Proof/Machine/Ops.lean ====
section
/-!
DEFINITION. The named operations over memory: the CPU bus (R51 to R58), the stack (R60 to R62), and entering and leaving an interrupt (R220, R223,
R260).
-/

namespace Sys2Proof.Machine

/-- The ram cell of a CPU address below $2000: `a & $07FF` (R52). -/
def ramIndex (a : Word) : Nat :=
  a.toNat % 0x800

/-- The PPU register an address of $2000 to $3FFF names: `a & 7` (R53). -/
def ppuRegister (a : Word) : Nat :=
  a.toNat % 8

/-- `len(prg)` (R8). -/
def PrgSize.bytes : PrgSize → Nat
  | .k16 => 0x4000
  | .k32 => 0x8000

/-- The prg index of an address of $8000 to $FFFF: `(a - $8000) mod len(prg)` (R55). -/
def prgIndex (cart : Cartridge) (a : Word) : Nat :=
  (a.toNat - 0x8000) % cart.prgSize.bytes

/-- `CpuRead(a)` with its side effects (R56). -/
def cpuRead (a : Word) (s : State) : Byte × State :=
  if a.toNat < 0x2000 then (s.ram.read (ramIndex a), s)
  else if a.toNat < 0x4000 then ppuRegRead (ppuRegister a) s
  else if a.toNat < 0x8000 then (0, s)
  else (s.cart.prg.read (prgIndex s.cart a), s)

/-- `CpuWrite(a, v)` (R56): writes from $4000 up have no effect. -/
def cpuWrite (a : Word) (v : Byte) (s : State) : State :=
  if a.toNat < 0x2000 then s.setRam (s.ram.write (ramIndex a) v)
  else if a.toNat < 0x4000 then ppuRegWrite (ppuRegister a) v s
  else s

/-- `MemRead(a, 2)`: little-endian, low byte first, `a + 1` with carry into the high byte (R58). -/
def memRead16 (a : Word) (s : State) : Word × State :=
  let lo := cpuRead a s
  let hi := cpuRead (a + 1) lo.2
  (hi.1 ++ lo.1, hi.2)

/-- The ram cell the next push writes: $0100 + SP (R34). -/
def stackIndex (sp : Byte) : Nat :=
  0x100 + sp.toNat

/-- `Push(v)`: "push stores then decrements SP" (R60). -/
def push (v : Byte) (s : State) : State :=
  (s.setRam (s.ram.write (stackIndex s.cpu.sp) v)).setSP (s.cpu.sp - 1)

/-- `Pop()`: "pop increments SP then loads" (R61). -/
def pop (s : State) : Byte × State :=
  let sp := s.cpu.sp + 1
  (s.ram.read (stackIndex sp), s.setSP sp)

/-- Pushes a return address, high byte first (R59). -/
def pushWord (w : Word) (s : State) : State :=
  push (lo8 w) (push (hi8 w) s)

/-- Pops an address, low byte first (R192, R223). -/
def popWord (s : State) : Word × State :=
  let lo := pop s
  let hi := pop lo.2
  (hi.1 ++ lo.1, hi.2)

/-- The NMI vector (R67, R256). -/
def nmiVector : Word := 0xFFFA

/-- The IRQ/BRK vector (R67, R256). -/
def brkVector : Word := 0xFFFE

/-- Entering a handler, shared by BRK (R220) and NMI entry (R260): push the return address, write B, push the status byte, load PC from the
vector, set I. -/
def enterInterrupt (ret vector : Word) (b : Bool) (s : State) : State :=
  let s1 := pushWord ret s
  let s2 := s1.setP { s1.cpu.p with b := b }
  let s3 := push s2.cpu.p.serialize s2
  let r := memRead16 vector s3
  let s4 := r.2.setPC r.1
  s4.setP { s4.cpu.p with i := true }

/-- Returning from a handler: "RTI pops flags, then PC (low, high)", with no increment (R223). -/
def returnFromInterrupt (s : State) : State :=
  let f := pop s
  let r := popWord (f.2.setP (Status.deserialize f.1))
  r.2.setPC r.1

end Sys2Proof.Machine
end

