-- ==== Sys2Proof/Machine/Operands.lean ====
section
/-!
DEFINITION. Every addressing mode: effective addresses (30_encoding.md R97 to R102), `Operand()`, `Store(v)` and the eager read of R103.
-/

namespace Sys2Proof.Machine

/-- The 16-bit pointer at zero-page location `z`; its high byte is at z + 1, or at (z + 1) mod 256 under `ZP_POINTER_WRAP` (R101). Both reads are
below $0200, where a read has no side effect (R57). -/
def zeroPagePointer (z : Byte) (s : State) : Word :=
  let lo : Word := z.setWidth 16
  let hi : Word := if s.params.zpPointerWrap then (z + 1).setWidth 16 else lo + 1
  (cpuRead hi s).1 ++ (cpuRead lo s).1

/-- The effective address (R97, R98, R99, R101, R102). -/
def effectiveAddress (m : MemMode) (s : State) : Word :=
  match m with
  | .zrp zp => zp.setWidth 16
  | .zpx zp => (zp + s.cpu.x).setWidth 16
  | .zpy zp => (zp + s.cpu.y).setWidth 16
  | .abs addr => addr
  | .abx addr => addr + s.cpu.x.setWidth 16
  | .aby addr => addr + s.cpu.y.setWidth 16
  | .izx zp => zeroPagePointer (zp + s.cpu.x) s
  | .izy zp => zeroPagePointer zp s + s.cpu.y.setWidth 16

/-- `Operand()` of a memory mode: one `CpuRead(ea)` (R103). -/
def readMem (m : MemMode) (s : State) : Byte × State :=
  cpuRead (effectiveAddress m s) s

/-- `Operand()`: the immediate byte or one read (R95, R103). -/
def readSource (src : Source) (s : State) : Byte × State :=
  match src with
  | .imm b => (b, s)
  | .mem m => readMem m s

/-- The read of the effective address that `EAGER_OPERAND_READ` adds to an instruction that does not use M: stores, JMP and JSR (R103). -/
def eagerRead (ea : Word) (s : State) : State :=
  if s.params.eagerOperandRead then (cpuRead ea s).2 else s

/-- `CpuWrite(ea, v)` of a store instruction, after the eager read if there is one (R133). -/
def storeMem (m : MemMode) (v : Byte) (s : State) : State :=
  cpuWrite (effectiveAddress m s) v (eagerRead (effectiveAddress m s) s)

/-- A read-modify-write of memory, one read and one write of ea (R66, D8): the byte read, and the state after the write of `f` of it. -/
def modifyMem (m : MemMode) (f : Byte → Byte) (s : State) : Byte × State :=
  let r := readMem m s
  (r.1, cpuWrite (effectiveAddress m s) (f r.1) r.2)

/-- A read-modify-write of A (R94) or of memory. -/
def modifyTarget (dst : Target) (f : Byte → Byte) (s : State) : Byte × State :=
  match dst with
  | .acc => (s.cpu.a, s.setA (f s.cpu.a))
  | .mem m => modifyMem m f s

/-- JMP's effective address and the state after reading the pointer of IND (R99, R100). -/
def jumpAddress (target : JumpTarget) (s : State) : Word × State :=
  match target with
  | .abs addr => (addr, s)
  | .ind ptr => memRead16 ptr s

/-- The PC after a branch with operand byte `rel`: f + 2, plus the sign-extended offset when it is taken (R193). -/
def branch (taken : Bool) (rel : Byte) (s : State) : State :=
  let next := s.advance 2
  if taken then next.setPC (next.cpu.pc + rel.signExtend 16) else next

end Sys2Proof.Machine
end

