-- ==== Sys2Proof/Machine/Arith.lean ====
section
/-!
DEFINITION. Arithmetic, logic, compare, increment and decrement (41_arithmetic_logic.md).
-/

namespace Sys2Proof.Machine

/-- `(r, c, v) = AddCore(A, Operand(), P.C)` (R150). -/
def execAdc (src : Source) (s : State) : Answer :=
  let r := readSource src s
  let q := addCore s.params.adcCarryRule s.cpu.a r.1 s.cpu.p.c
  .next (((r.2.setA q.r).setP (r.2.cpu.p.withAdd q)).advance src.mode.length)

/-- `(r, c, v) = AddCore(A, 255 - Operand(), 1)`: P.C is not read (R151). -/
def execSbc (src : Source) (s : State) : Answer :=
  let r := readSource src s
  let q := addCore s.params.adcCarryRule s.cpu.a (255 - r.1) true
  .next (((r.2.setA q.r).setP (r.2.cpu.p.withAdd q)).advance src.mode.length)

/-- `A <- A & Operand(); setZN(A)` (R152). -/
def execAnd (src : Source) (s : State) : Answer :=
  let r := readSource src s
  let v := s.cpu.a &&& r.1
  .next (((r.2.setA v).setZN v).advance src.mode.length)

/-- `A <- A | Operand(); setZN(A)` (R153). -/
def execOra (src : Source) (s : State) : Answer :=
  let r := readSource src s
  let v := s.cpu.a ||| r.1
  .next (((r.2.setA v).setZN v).advance src.mode.length)

/-- `A <- A ^ Operand(); setZN(A)` (R154). -/
def execEor (src : Source) (s : State) : Answer :=
  let r := readSource src s
  let v := s.cpu.a ^^^ r.1
  .next (((r.2.setA v).setZN v).advance src.mode.length)

/-- Z from A AND M, N and V from M; A is unchanged (R155). -/
def execBit (src : MemMode) (s : State) : Answer :=
  let r := readMem src s
  .next ((r.2.setP (r.2.cpu.p.withBit s.cpu.a r.1)).advance src.mode.length)

/-- `Compare(A, Operand())` (R156). -/
def execCmp (src : Source) (s : State) : Answer :=
  let r := readSource src s
  .next ((r.2.setP (r.2.cpu.p.withCompare s.cpu.a r.1)).advance src.mode.length)

/-- `Compare(X, Operand())` (R157). -/
def execCpx (src : Source) (s : State) : Answer :=
  let r := readSource src s
  .next ((r.2.setP (r.2.cpu.p.withCompare s.cpu.x r.1)).advance src.mode.length)

/-- `Compare(Y, Operand())` (R158). -/
def execCpy (src : Source) (s : State) : Answer :=
  let r := readSource src s
  .next ((r.2.setP (r.2.cpu.p.withCompare s.cpu.y r.1)).advance src.mode.length)

/-- `r = (Operand() + 1) mod 256; Store(r); setZN(r)` (R159). -/
def execInc (dst : MemMode) (s : State) : Answer :=
  let r := modifyMem dst (fun m => m + 1) s
  .next ((r.2.setZN (r.1 + 1)).advance dst.mode.length)

/-- `r = (Operand() - 1) mod 256; Store(r); setZN(r)` (R160). -/
def execDec (dst : MemMode) (s : State) : Answer :=
  let r := modifyMem dst (fun m => m - 1) s
  .next ((r.2.setZN (r.1 - 1)).advance dst.mode.length)

/-- `X <- (X + 1) mod 256; setZN(X)` (R161). -/
def execInx (s : State) : Answer :=
  let v := s.cpu.x + 1
  .next (((s.setX v).setZN v).advance 1)

/-- `Y <- (Y + 1) mod 256; setZN(Y)` (R162). -/
def execIny (s : State) : Answer :=
  let v := s.cpu.y + 1
  .next (((s.setY v).setZN v).advance 1)

/-- `X <- (X - 1) mod 256; setZN(X)` (R163). -/
def execDex (s : State) : Answer :=
  let v := s.cpu.x - 1
  .next (((s.setX v).setZN v).advance 1)

/-- `Y <- (Y - 1) mod 256; setZN(Y)` (R164). -/
def execDey (s : State) : Answer :=
  let v := s.cpu.y - 1
  .next (((s.setY v).setZN v).advance 1)

end Sys2Proof.Machine
end

