-- ==== Sys2Proof/Machine/Control.lean ====
section
/-!
DEFINITION. Jumps, subroutine calls and branches (43_control_transfer.md).
-/

namespace Sys2Proof.Machine

/-- `PC <- ea` (R190). -/
def execJmp (target : JumpTarget) (s : State) : Answer :=
  let r := jumpAddress target s
  .next ((eagerRead r.1 r.2).setPC r.1)

/-- Pushes f + 2, the address of its own last byte, high byte first; `PC <- ea` (R191). -/
def execJsr (addr : Word) (s : State) : Answer :=
  .next ((pushWord (s.cpu.pc + 2) (eagerRead addr s)).setPC addr)

/-- `lo = Pop(); hi = Pop(); PC <- (hi:lo + 1) mod 2^16` (R192). -/
def execRts (s : State) : Answer :=
  let r := popWord s
  .next (r.2.setPC (r.1 + 1))

/-- Taken when P.N = 0 (R194). -/
def execBpl (rel : Byte) (s : State) : Answer :=
  .next (branch (!s.cpu.p.n) rel s)

/-- Taken when P.N = 1 (R195). -/
def execBmi (rel : Byte) (s : State) : Answer :=
  .next (branch s.cpu.p.n rel s)

/-- Taken when P.V = 0 (R196). -/
def execBvc (rel : Byte) (s : State) : Answer :=
  .next (branch (!s.cpu.p.v) rel s)

/-- Taken when P.V = 1 (R197). -/
def execBvs (rel : Byte) (s : State) : Answer :=
  .next (branch s.cpu.p.v rel s)

/-- Taken when P.C = 0 (R198). -/
def execBcc (rel : Byte) (s : State) : Answer :=
  .next (branch (!s.cpu.p.c) rel s)

/-- Taken when P.C = 1 (R199). -/
def execBcs (rel : Byte) (s : State) : Answer :=
  .next (branch s.cpu.p.c rel s)

/-- Taken when P.Z = 0 (R200). -/
def execBne (rel : Byte) (s : State) : Answer :=
  .next (branch (!s.cpu.p.z) rel s)

/-- Taken when P.Z = 1 (R201). -/
def execBeq (rel : Byte) (s : State) : Answer :=
  .next (branch s.cpu.p.z rel s)

end Sys2Proof.Machine
end

