-- ==== Sys2Proof/Machine/LoadStore.lean ====
section
/-!
DEFINITION. Loads, stores and register transfers (40_load_store_transfer.md). A meaning gets the state with PC at the fetch address and leaves
PC at fetch address + length (R32, R92; log 12).
-/

namespace Sys2Proof.Machine

/-- `A <- Operand(); setZN(A)` (R130). -/
def execLda (src : Source) (s : State) : Answer :=
  let r := readSource src s
  .next (((r.2.setA r.1).setZN r.1).advance src.mode.length)

/-- `X <- Operand(); setZN(X)` (R131). -/
def execLdx (src : Source) (s : State) : Answer :=
  let r := readSource src s
  .next (((r.2.setX r.1).setZN r.1).advance src.mode.length)

/-- `Y <- Operand(); setZN(Y)` (R132). -/
def execLdy (src : Source) (s : State) : Answer :=
  let r := readSource src s
  .next (((r.2.setY r.1).setZN r.1).advance src.mode.length)

/-- `CpuWrite(ea, A)` (R133). -/
def execSta (dst : MemMode) (s : State) : Answer :=
  .next ((storeMem dst s.cpu.a s).advance dst.mode.length)

/-- `CpuWrite(ea, X)` (R134). -/
def execStx (dst : MemMode) (s : State) : Answer :=
  .next ((storeMem dst s.cpu.x s).advance dst.mode.length)

/-- `CpuWrite(ea, Y)` (R135). -/
def execSty (dst : MemMode) (s : State) : Answer :=
  .next ((storeMem dst s.cpu.y s).advance dst.mode.length)

/-- `X <- A; setZN(X)` (R136). -/
def execTax (s : State) : Answer :=
  .next (((s.setX s.cpu.a).setZN s.cpu.a).advance 1)

/-- `Y <- A; setZN(Y)` (R137). -/
def execTay (s : State) : Answer :=
  .next (((s.setY s.cpu.a).setZN s.cpu.a).advance 1)

/-- `A <- X; setZN(A)` (R138). -/
def execTxa (s : State) : Answer :=
  .next (((s.setA s.cpu.x).setZN s.cpu.x).advance 1)

/-- `A <- Y; setZN(A)` (R139). -/
def execTya (s : State) : Answer :=
  .next (((s.setA s.cpu.y).setZN s.cpu.y).advance 1)

/-- `X <- SP; setZN(X)` (R140). -/
def execTsx (s : State) : Answer :=
  .next (((s.setX s.cpu.sp).setZN s.cpu.sp).advance 1)

/-- `SP <- X`, no flag (R141). -/
def execTxs (s : State) : Answer :=
  .next ((s.setSP s.cpu.x).advance 1)

end Sys2Proof.Machine
end

