-- ==== Sys2Proof/Machine/Shift.lean ====
section
/-!
DEFINITION. Shifts and rotates on A or memory (42_shift_rotate.md).
-/

namespace Sys2Proof.Machine

/-- `r = (m << 1) mod 256; P.C <- m[7]` (R180). -/
def execAsl (dst : Target) (s : State) : Answer :=
  let r := modifyTarget dst shiftLeft s
  .next ((r.2.setP (r.2.cpu.p.withShift r.1.msb (shiftLeft r.1))).advance dst.mode.length)

/-- `r = m >> 1; P.C <- m[0]` (R181). -/
def execLsr (dst : Target) (s : State) : Answer :=
  let r := modifyTarget dst shiftRight s
  .next ((r.2.setP (r.2.cpu.p.withShift (r.1.getLsbD 0) (shiftRight r.1))).advance dst.mode.length)

/-- `r = ((m << 1) | P.C) mod 256; P.C <- m[7]`, with the old P.C (R182). -/
def execRol (dst : Target) (s : State) : Answer :=
  let r := modifyTarget dst (rotateLeft s.cpu.p.c) s
  .next ((r.2.setP (r.2.cpu.p.withShift r.1.msb (rotateLeft s.cpu.p.c r.1))).advance dst.mode.length)

/-- `r = (m >> 1) | (P.C << 7); P.C <- m[0]`, with the old P.C (R183). -/
def execRor (dst : Target) (s : State) : Answer :=
  let r := modifyTarget dst (rotateRight s.cpu.p.c) s
  .next ((r.2.setP (r.2.cpu.p.withShift (r.1.getLsbD 0) (rotateRight s.cpu.p.c r.1))).advance dst.mode.length)

end Sys2Proof.Machine
end

