-- ==== Sys2Proof/Machine/System.lean ====
section
/-!
DEFINITION. Stack, flag, no-op and system instructions (44_stack_flags_system.md).
-/

namespace Sys2Proof.Machine

/-- `Push(A)` (R210). -/
def execPha (s : State) : Answer :=
  .next ((push s.cpu.a s).advance 1)

/-- `A <- Pop(); setZN(A)` (R211). -/
def execPla (s : State) : Answer :=
  let r := pop s
  .next (((r.2.setA r.1).setZN r.1).advance 1)

/-- `Push(serialize(P))` (R212). -/
def execPhp (s : State) : Answer :=
  .next ((push s.cpu.p.serialize s).advance 1)

/-- `deserialize(Pop())` (R213). -/
def execPlp (s : State) : Answer :=
  let r := pop s
  .next ((r.2.setP (Status.deserialize r.1)).advance 1)

/-- `P.C <- 0` (R214). -/
def execClc (s : State) : Answer :=
  .next ((s.setP { s.cpu.p with c := false }).advance 1)

/-- `P.C <- 1` (R215). -/
def execSec (s : State) : Answer :=
  .next ((s.setP { s.cpu.p with c := true }).advance 1)

/-- `P.I <- 0` (R216). -/
def execCli (s : State) : Answer :=
  .next ((s.setP { s.cpu.p with i := false }).advance 1)

/-- `P.I <- 1` (R217). -/
def execSei (s : State) : Answer :=
  .next ((s.setP { s.cpu.p with i := true }).advance 1)

/-- `P.V <- 0` (R218). -/
def execClv (s : State) : Answer :=
  .next ((s.setP { s.cpu.p with v := false }).advance 1)

/-- Nothing but PC (R219). -/
def execNop (s : State) : Answer :=
  .next (s.advance 1)

/-- `BRK_PUSH_OFFSET` as a number (R10, D9). -/
def brkOffset : BrkOffset → Word
  | .one => 1
  | .two => 2

/-- The software interrupt: the shared entry with B set, from $FFFE, with the return address f + `BRK_PUSH_OFFSET` (R220). -/
def execBrk (s : State) : Answer :=
  .next (enterInterrupt (s.cpu.pc + brkOffset s.params.brkPushOffset) brkVector true s)

/-- "SED/CLD are no-ops" (R221). -/
def execSed (s : State) : Answer :=
  .next (s.advance 1)

/-- "SED/CLD are no-ops" (R222). -/
def execCld (s : State) : Answer :=
  .next (s.advance 1)

/-- "RTI pops flags, then PC (low, high)" (R223). -/
def execRti (s : State) : Answer :=
  .next (returnFromInterrupt s)

end Sys2Proof.Machine
end

