-- ==== Sys2Proof/Machine/Unofficial.lean ====
section
/-!
DEFINITION. The unofficial opcodes (45_unofficial.md): each halts the core if its byte is in `HALT_OPCODES`, and is otherwise a no-op that
consumes its operand bytes (R106, R240, R241). None performs its silicon operation.
-/

namespace Sys2Proof.Machine

/-- `op in HALT_OPCODES` (R254); "`HALT_OPCODES` is a subset of the 105 unofficial opcodes" (R240; log 8). -/
def haltsOn (s : State) (op : Byte) : Bool :=
  s.params.haltOpcodes.contains op && opcodeUnofficial op

/-- An unofficial opcode: halt after the opcode fetch, PC = f + 1 (R240; log 7), or skip the instruction's bytes (R241). -/
def unofficial (i : Instr) (s : State) : State :=
  match i.opcode with
  | some op => if haltsOn s op then (s.advance 1).halt else s.advance i.length
  | none => s.advance i.length

/-- KIL: halts by default; a one-byte no-op if its byte is taken out of `HALT_OPCODES` (R240, R242). -/
def execKil (op : Byte) (s : State) : Answer :=
  .next (unofficial (.kil op) s)

/-- An unofficial NOP: a no-op of its mode's length, unless its byte is in `HALT_OPCODES` (R241, R240). -/
def execNopUnofficial (op : Byte) (operand : Skipped) (s : State) : Answer :=
  .next (unofficial (.nopUnofficial op operand) s)

/-- The byte labelled SLO: a no-op of its mode's length, unless its byte is in `HALT_OPCODES` (R241, R240). -/
def execSlo (m : MemMode) (s : State) : Answer :=
  .next (unofficial (.slo m) s)

/-- The byte labelled RLA: a no-op of its mode's length, unless its byte is in `HALT_OPCODES` (R241, R240). -/
def execRla (m : MemMode) (s : State) : Answer :=
  .next (unofficial (.rla m) s)

/-- The byte labelled SRE: a no-op of its mode's length, unless its byte is in `HALT_OPCODES` (R241, R240). -/
def execSre (m : MemMode) (s : State) : Answer :=
  .next (unofficial (.sre m) s)

/-- The byte labelled RRA: a no-op of its mode's length, unless its byte is in `HALT_OPCODES` (R241, R240). -/
def execRra (m : MemMode) (s : State) : Answer :=
  .next (unofficial (.rra m) s)

/-- The byte labelled SAX: a no-op of its mode's length, unless its byte is in `HALT_OPCODES` (R241, R240). -/
def execSax (m : MemMode) (s : State) : Answer :=
  .next (unofficial (.sax m) s)

/-- The byte labelled DCP: a no-op of its mode's length, unless its byte is in `HALT_OPCODES` (R241, R240). -/
def execDcp (m : MemMode) (s : State) : Answer :=
  .next (unofficial (.dcp m) s)

/-- The byte labelled ISC: a no-op of its mode's length, unless its byte is in `HALT_OPCODES` (R241, R240). -/
def execIsc (m : MemMode) (s : State) : Answer :=
  .next (unofficial (.isc m) s)

/-- The byte labelled AHX: a no-op of its mode's length, unless its byte is in `HALT_OPCODES` (R241, R240). -/
def execAhx (m : MemMode) (s : State) : Answer :=
  .next (unofficial (.ahx m) s)

/-- The byte labelled LAX: a no-op of its mode's length, unless its byte is in `HALT_OPCODES` (R241, R240). -/
def execLax (src : Source) (s : State) : Answer :=
  .next (unofficial (.lax src) s)

/-- The byte labelled ANC: a no-op of its mode's length, unless its byte is in `HALT_OPCODES` (R241, R240). -/
def execAnc (op : Byte) (b : Byte) (s : State) : Answer :=
  .next (unofficial (.anc op b) s)

/-- The byte labelled ALR: a no-op of its mode's length, unless its byte is in `HALT_OPCODES` (R241, R240). -/
def execAlr (b : Byte) (s : State) : Answer :=
  .next (unofficial (.alr b) s)

/-- The byte labelled ARR: a no-op of its mode's length, unless its byte is in `HALT_OPCODES` (R241, R240). -/
def execArr (b : Byte) (s : State) : Answer :=
  .next (unofficial (.arr b) s)

/-- The byte labelled XAA: a no-op of its mode's length, unless its byte is in `HALT_OPCODES` (R241, R240). -/
def execXaa (b : Byte) (s : State) : Answer :=
  .next (unofficial (.xaa b) s)

/-- The byte labelled AXS: a no-op of its mode's length, unless its byte is in `HALT_OPCODES` (R241, R240). -/
def execAxs (b : Byte) (s : State) : Answer :=
  .next (unofficial (.axs b) s)

/-- The byte labelled USBC: a no-op of its mode's length, unless its byte is in `HALT_OPCODES` (R241, R240). -/
def execUsbc (b : Byte) (s : State) : Answer :=
  .next (unofficial (.usbc b) s)

/-- The byte labelled TAS: a no-op of its mode's length, unless its byte is in `HALT_OPCODES` (R241, R240). -/
def execTas (addr : Word) (s : State) : Answer :=
  .next (unofficial (.tas addr) s)

/-- The byte labelled SHY: a no-op of its mode's length, unless its byte is in `HALT_OPCODES` (R241, R240). -/
def execShy (addr : Word) (s : State) : Answer :=
  .next (unofficial (.shy addr) s)

/-- The byte labelled SHX: a no-op of its mode's length, unless its byte is in `HALT_OPCODES` (R241, R240). -/
def execShx (addr : Word) (s : State) : Answer :=
  .next (unofficial (.shx addr) s)

/-- The byte labelled LAS: a no-op of its mode's length, unless its byte is in `HALT_OPCODES` (R241, R240). -/
def execLas (addr : Word) (s : State) : Answer :=
  .next (unofficial (.las addr) s)

end Sys2Proof.Machine
end

