-- ==== Sys2Proof/Machine/PpuTick.lean ====
section
/-!
DEFINITION. The PPU tick (60_exceptions.md R271 to R282): the counters advance, then the event of the new position happens (D23).
-/

namespace Sys2Proof.Machine

/-- mask[3] or mask[4] is 1, or the gate is off: the condition of `SkipEnabled()` (R272) and of the visible-line events (R278). -/
def renderingActive (s : State) : Bool :=
  !s.params.renderingGate || s.ppu.mask.getLsbD 3 || s.ppu.mask.getLsbD 4

/-- The cycle `PpuTick` starts from: an odd frame with the skip enabled passes over (261, 340) (R271, R272). -/
def skippedCycle (s : State) : Nat :=
  if s.ppu.scanline = 261 ∧ s.ppu.cycle = 339 ∧ s.ppu.oddFrame = true ∧ renderingActive s = true then 340 else s.ppu.cycle

/-- The counters after one tick (R271). -/
def advanceCounters (s : State) : Ppu :=
  let p := s.ppu
  let cycle := skippedCycle s + 1
  if cycle = 341 then
    if p.scanline + 1 = 262 then { p with cycle := 0, scanline := 0, oddFrame := !p.oddFrame }
    else { p with cycle := 0, scanline := p.scanline + 1 }
  else { p with cycle := cycle }

/-- Coarse X increment: at 31 it wraps and flips the nametable bit v[10] (R274). -/
def incrementCoarseX (v : Loopy) : Loopy :=
  if coarseX v = 31 then loopy (fineY v) (nametable v ^^^ 1) (coarseY v) 0
  else loopy (fineY v) (nametable v) (coarseY v) (coarseX v + 1)

/-- Y increment: fine Y, then coarse Y, with a nametable flip v[11] at 29 and none at 31 (R275). -/
def incrementY (v : Loopy) : Loopy :=
  if (fineY v).toNat < 7 then loopy (fineY v + 1) (nametable v) (coarseY v) (coarseX v)
  else if coarseY v = 29 then loopy 0 (nametable v ^^^ 2) 0 (coarseX v)
  else if coarseY v = 31 then loopy 0 (nametable v) 0 (coarseX v)
  else loopy 0 (nametable v) (coarseY v + 1) (coarseX v)

/-- The horizontal copy: v[4:0] and v[10] from t (R277). -/
def copyHorizontal (v t : Loopy) : Loopy :=
  loopy (fineY v) ((nametable v).extractLsb' 1 1 ++ (nametable t).extractLsb' 0 1) (coarseY v) (coarseX t)

/-- v after the events of a visible scanline at `p.cycle` (R273): coarse X at 8, 16, …, 256, then Y at 256; the copy at 257. -/
def visibleEvents (p : Ppu) : Loopy :=
  if p.cycle = 256 then incrementY (incrementCoarseX p.v)
  else if p.cycle = 257 then copyHorizontal p.v p.t
  else if 1 ≤ p.cycle ∧ p.cycle ≤ 256 ∧ p.cycle % 8 = 0 then incrementCoarseX p.v
  else p.v

/-- (241, 1): vblank is set and, if ctrl[7] is 1, the NMI is signalled (R280, R282). -/
def startVblank (s : State) : State :=
  let s' := s.setPpu { s.ppu with vblank := true }
  if s.ppu.ctrl.getLsbD 7 then s'.setNmiPending true else s'

/-- (261, 1): vblank, sprite0Hit and spriteOverflow are cleared (R281). -/
def endVblank (s : State) : State :=
  s.setPpu { s.ppu with vblank := false, sprite0Hit := false, spriteOverflow := false }

/-- `PerformEvent(scanline, cycle)` (R273). The fetch pipeline's reads feed no state and are not made here (R276; log 6). -/
def performEvent (s : State) : State :=
  if s.ppu.scanline < 240 then
    if renderingActive s then s.setPpu { s.ppu with v := visibleEvents s.ppu } else s
  else if s.ppu.scanline = 241 ∧ s.ppu.cycle = 1 then startVblank s
  else if s.ppu.scanline = 261 ∧ s.ppu.cycle = 1 then endVblank s
  else s

/-- `PpuTick()` (R271). -/
def ppuTick (s : State) : State :=
  performEvent (s.setPpu (advanceCounters s))

/-- The four bytes the fetch pipeline reads for one group of 8 cycles (R276). They are a function of the state that nothing in scope reads; the
step does not use them. -/
structure TileFetch where
  nametableByte : Byte
  attributeByte : Byte
  patternLow : Byte
  patternHigh : Byte
  deriving DecidableEq, Repr

/-- The fetch pipeline's reads at the present v (R276). -/
def tileFetch (s : State) : TileFetch :=
  let v := s.ppu.v.toNat
  let nt := videoRead s (0x2000 ||| (v &&& 0x0FFF))
  let bg := if s.ppu.ctrl.getLsbD 4 then 0x1000 else 0
  let pattern := bg + 16 * nt.toNat + (fineY s.ppu.v).toNat
  { nametableByte := nt
    attributeByte := videoRead s (0x23C0 ||| (v &&& 0x0C00) ||| ((v >>> 4) &&& 0x38) ||| ((v >>> 2) &&& 0x07))
    patternLow := videoRead s pattern
    patternHigh := videoRead s (pattern + 8) }

end Sys2Proof.Machine
end

