-- ==== Sys2Proof/Machine/Tick.lean ====
section
/-!
DEFINITION. The CPU tick (R254), the host's choice of the next agent (R300, R301), the whole system step, and placing an instruction where the next
fetch reads it.
-/

namespace Sys2Proof.Machine

/-- The bytes at PC, and the state after the reads the fetch makes (R92): the opcode byte alone if it halts (R254; log 7), else the opcode byte and
the operand bytes of its mode. PC is left at the fetch address; the meaning advances it (log 12). Bytes beyond the instruction are shown to the
decoder, which ignores them, but their reads are not made. -/
def fetch (s : State) : List Byte × State :=
  let op := cpuRead s.cpu.pc s
  let b1 := cpuRead (s.cpu.pc + 1) op.2
  let b2 := cpuRead (s.cpu.pc + 2) b1.2
  let after :=
    if haltsOn s op.1 then op.2
    else match opcodeLength op.1 with
      | 1 => op.2
      | 2 => b1.2
      | _ => b2.2
  ([op.1, b1.1, b2.1], after)

/-- The runaway guard: `if PC < $8000 then halted <- 1` (R252). -/
def runawayGuard (s : State) : State :=
  if s.cpu.pc.toNat < 0x8000 then s.halt else s

/-- The runaway guard "after every tick" (R252), on an answer. -/
def guarded : Answer → Answer
  | .next t => .next (runawayGuard t)
  | .fault r => .fault r
  | .refused r => .refused r

/-- NMI entry: the pending flag is cleared and the shared entry runs with return address PC, from $FFFA, with B as `NMI_PUSHES_BREAK` says (R254,
R260, R261). -/
def nmiEntry (s : State) : State :=
  enterInterrupt s.cpu.pc nmiVector s.params.nmiPushesBreak (s.setNmiPending false)

/-- Fetch, decode and execute one instruction (R254). -/
def runInstruction (s : State) : Answer :=
  let f := fetch s
  match decode f.1 with
  | .ok (i, _) => exec i f.2
  | .error e => .refused (.undecoded e)

/-- `CpuTick()` (R254). -/
def cpuTick (s : State) : Answer :=
  if s.cpu.halted then .next s
  else if s.cpu.nmiPending then .next (runawayGuard (nmiEntry s))
  else guarded (runInstruction s)

/-- One tick of one agent (R300). -/
def tick (agent : Agent) (s : State) : Answer :=
  match agent with
  | .cpu => cpuTick s
  | .ppu => .next (ppuTick s)

/-- Which agent ticks next: the host's next choice (R300), or the reference scheduler's (R301) when the host has made none (log 5). -/
def nextAgent (s : State) : Agent :=
  match s.schedule with
  | agent :: _ => agent
  | [] => if s.ppuOwed = 0 then .cpu else .ppu

/-- The choices left after one tick: the rest of the host's list, or the reference scheduler's count (R301). -/
def consumeChoice (s : State) : State :=
  match s.schedule with
  | _ :: rest => { s with schedule := rest }
  | [] => { s with ppuOwed := if s.ppuOwed = 0 then s.params.ppuTicksPerCpuTick else s.ppuOwed - 1 }

/-- The host's record after a tick, on an answer. -/
def consumed : Answer → Answer
  | .next t => .next (consumeChoice t)
  | .fault r => .fault r
  | .refused r => .refused r

/-- "The system step is therefore either one CpuTick or one PpuTick, chosen by the host" (R300). -/
def systemStep (s : State) : Answer :=
  consumed (tick (nextAgent s) s)

/-- Puts a byte where an instruction fetch at `a` reads it: in the PRG image, or in ram for an operand byte that wraps below $2000 (R33). -/
def placeByte (a : Word) (v : Byte) (s : State) : State :=
  if a.toNat < 0x2000 then s.setRam (s.ram.write (ramIndex a) v)
  else if a.toNat < 0x8000 then s
  else { s with cart := { s.cart with prg := s.cart.prg.write (prgIndex s.cart a) v } }

/-- Makes a CPU tick that fetches an instruction the next step: the core runs, no NMI is pending, the host has queued nothing and the reference
scheduler owes no PPU tick; a PC outside the PRG window, where nothing executes (R33), becomes $8000. -/
def readyToFetch (s : State) : State :=
  { s with
    cpu := { s.cpu with
      pc := if s.cpu.pc.toNat < 0x8000 then 0x8000 else s.cpu.pc, halted := false, nmiPending := false }
    schedule := []
    ppuOwed := 0 }

/-- Stores the three bytes of a table word at PC (log 3: it stands for the loader). -/
def placeInstruction (s : State) (nbits w : Nat) : State :=
  let s' := readyToFetch s
  let pc := s'.cpu.pc
  placeByte (pc + 2) (tableByte nbits w 2) (placeByte (pc + 1) (tableByte nbits w 1) (placeByte pc (tableByte nbits w 0) s'))

end Sys2Proof.Machine
end

