-- ==== Sys2Proof/Machine/Step.lean ====
section
/-!
DEFINITION. The step of the machine and the placement of an instruction for the next fetch.
-/

namespace Sys2Proof.Machine

/-- One system step: one tick of the agent the host chose (R300). -/
def step (s : State) : Host.Outcome State Fault Refusal :=
  systemStep s

/-- `s` with the table word `w` stored where the next step fetches its instruction (log 3). -/
def State.withFetchWord (s : State) (nbits w : Nat) : State :=
  placeInstruction s nbits w

end Sys2Proof.Machine
end

