-- ==== Sys2Proof/Machine/Session.lean ====
section
/-!
DEFINITION. Constructing a session from what the loader supplies (R8, R320, R323).
-/

namespace Sys2Proof.Machine

/-- The PRG size of an accepted image length (D20). -/
def prgSizeOf (n : Nat) : Option PrgSize :=
  if n = 0x4000 then some .k16 else if n = 0x8000 then some .k32 else none

/-- The CHR ROM of an accepted image: none for an empty one (R70), the image for 8192 bytes (D20). -/
def chrRomOf (chr : List Byte) : Option (Option Memory) :=
  if chr.length = 0 then some none
  else if chr.length = 0x2000 then some (some (Memory.ofBytes 0 chr))
  else none

/-- Session construction with the checks of R323: any other configuration "is refused at construction and gives no session". -/
def State.construct (prg chr : List Byte) (mirroring : Mirroring) (params : Params) (l : Launch) : Except Refusal State :=
  match prgSizeOf prg.length, chrRomOf chr with
  | some prgSize, some chrRom =>
    .ok (State.launch { prgSize := prgSize, prg := Memory.ofBytes 0 prg, chrRom := chrRom, mirroring := mirroring } params l)
  | _, _ => .error (.badCartridge prg.length chr.length)

end Sys2Proof.Machine
end

