-- ==== Sys2Proof/Safety.lean ====
section
/-!
DEFINITION. The words the statements use: the invariant of a run, the state-wide frames, and how a byte of the machine is looked at.
-/

namespace Sys2Proof.Machine

/-- A memory of `n` bytes in its canonical form. -/
def Canonical (n : Nat) (m : Memory) : Prop :=
  m.wf = true ∧ m.below n = true

/-- What R8 and D20 say of a cartridge: the images fit their sizes. -/
structure SoundCartridge (c : Cartridge) : Prop where
  prg : Canonical c.prgSize.bytes c.prg
  chrRom : ∀ m, c.chrRom = some m → Canonical 0x2000 m

/-- What R10 and R240 say of the parameters. -/
structure SoundParams (p : Params) : Prop where
  haltOpcodes : ∀ op ∈ p.haltOpcodes, opcodeUnofficial op = true
  ppuTicks : 0 < p.ppuTicksPerCpuTick

/-- The invariant of a session but for the PC window: memories canonical and in size (R39), counters in range (R38), the skipped dot never reached
(R272), sprite flags clear (R283), the read buffer untouched unless it exists (R38), and a sound configuration (R8, R10). -/
structure State.Sound (s : State) : Prop where
  cart : SoundCartridge s.cart
  params : SoundParams s.params
  ram : Canonical 0x800 s.ram
  ciram : Canonical 0x800 s.ciram
  palette : Canonical 0x20 s.palette
  chrRam : Canonical 0x2000 s.chrRam
  chrRamAbsent : s.cart.chrRom.isSome = true → s.chrRam = []
  scanline : s.ppu.scanline < 262
  cycle : s.ppu.cycle < 341
  skippedDot : s.params.renderingGate = false → s.ppu.oddFrame = true → ¬(s.ppu.scanline = 261 ∧ s.ppu.cycle = 340)
  sprite0Hit : s.ppu.sprite0Hit = false
  spriteOverflow : s.ppu.spriteOverflow = false
  readBuffer : s.params.ppudataReadBuffered = false → s.ppu.readBuffer = 0

/-- The invariant of a session: sound, and a core that has not halted stands in the PRG window (R33, R252). -/
structure State.Inv (s : State) : Prop where
  sound : s.Sound
  window : s.cpu.halted = false → 0x8000 ≤ s.cpu.pc.toNat

/-- The PPU aperture, the only range whose reads have side effects (R53, R57). -/
def InAperture (a : Word) : Prop :=
  0x2000 ≤ a.toNat ∧ a.toNat < 0x4000

/-- The byte the CPU bus shows at `a`, without the side effects of reading it. -/
def byteAt (s : State) (a : Word) : Byte :=
  (cpuRead a s).1

/-- The 16-bit value at `a`, low byte first (R58), for an address pair outside the aperture. -/
def wordAt (s : State) (a : Word) : Word :=
  byteAt s (a + 1) ++ byteAt s a

/-- Nothing of the session that is neither CPU, PPU nor memory changes: configuration (R8) and the host's choices. -/
def SameSession (s t : State) : Prop :=
  t.cart = s.cart ∧ t.params = s.params ∧ t.schedule = s.schedule ∧ t.ppuOwed = s.ppuOwed

/-- Every byte of VideoMemory reads as before. -/
def SameVideo (s t : State) : Prop :=
  ∀ a, videoRead t a = videoRead s a

/-- Every byte of the CPU bus outside the aperture reads as before. -/
def SameBus (s t : State) : Prop :=
  ∀ b, ¬InAperture b → byteAt t b = byteAt s b

/-- What reading the bus at `addrs` may change of the PPU: only what a register 2 or 7 read changes (R289, R294), and nothing at all unless one of
the addresses is one of those two registers (R57, R288). -/
def PpuReadFrame (addrs : List Word) (s t : State) : Prop :=
  t.ppu = { s.ppu with
      v := t.ppu.v, w := t.ppu.w, sprite0Hit := t.ppu.sprite0Hit, spriteOverflow := t.ppu.spriteOverflow,
      latch := t.ppu.latch, readBuffer := t.ppu.readBuffer }
    ∧ ((∀ a ∈ addrs, InAperture a → ppuRegister a ≠ 2 ∧ ppuRegister a ≠ 7) → t.ppu = s.ppu)

/-- The frame of an instruction that reads the bus at `addrs` (none for an immediate or implied operand) and stores nothing (R57). -/
def ReadFrame (addrs : List Word) (s t : State) : Prop :=
  SameSession s t ∧ SameBus s t ∧ SameVideo s t ∧ PpuReadFrame addrs s t

/-- What storing the byte `v` at `ea` may change, `u` being the state just before the store (R56, R290): outside the aperture one ram cell and its
mirrors (R52); in it the PPU is as a write of register `ea & 7` leaves it (R53), the counters and vblank stay, and through register 7 one VideoMemory
cell may change. -/
def StoreFrame (ea : Word) (v : Byte) (u s t : State) : Prop :=
  SameSession s t
    ∧ (∀ b, ¬InAperture b → ¬(ea.toNat < 0x2000 ∧ b.toNat < 0x2000 ∧ ramIndex b = ramIndex ea) → byteAt t b = byteAt s b)
    ∧ (¬(InAperture ea ∧ ppuRegister ea = 7) → SameVideo s t)
    ∧ (InAperture ea ∧ ppuRegister ea = 7 → ∀ c, videoCell s.cart c ≠ videoCell s.cart u.ppu.v.toNat → videoRead t c = videoRead s c)
    ∧ (¬InAperture ea → t.ppu = s.ppu)
    ∧ (InAperture ea →
        t.ppu = (ppuRegWrite (ppuRegister ea) v u).ppu
          ∧ t.cpu.nmiPending = (ppuRegWrite (ppuRegister ea) v u).cpu.nmiPending)
    ∧ (t.ppu.scanline = s.ppu.scanline ∧ t.ppu.cycle = s.ppu.cycle ∧ t.ppu.oddFrame = s.ppu.oddFrame
        ∧ t.ppu.vblank = s.ppu.vblank)
    ∧ (¬(InAperture ea ∧ ppuRegister ea = 0) → t.cpu.nmiPending = s.cpu.nmiPending)

/-- The addresses at which an operand is read: its effective address, if it has one (R95, R103). -/
def sourceReads (src : Source) (s : State) : List Word :=
  match src with
  | .imm _ => []
  | .mem m => [effectiveAddress m s]

/-- The read of `ea` that `EAGER_OPERAND_READ` adds to a store, JMP or JSR (R103). -/
def eagerReads (ea : Word) (s : State) : List Word :=
  if s.params.eagerOperandRead then [ea] else []

/-- The addresses JMP reads: the two bytes of IND's pointer (R100), then the eager read of the target (R103). -/
def jumpReads (target : JumpTarget) (s : State) : List Word :=
  match target with
  | .abs ea => eagerReads ea s
  | .ind ptr => ptr :: (ptr + 1) :: eagerReads (jumpAddress target s).1 s

/-- The bytes of each form of an instruction with the eight modes of LDA: the "Encodings" line of its rule. -/
def AccumulatorEncodings (mk : Source → Instr) (imm zrp zpx abs abx aby izx izy : Byte) : Prop :=
  ∀ (b : Byte) (w : Word),
    encode (mk (.imm b)) = some [imm, b] ∧ encode (mk (.mem (.zrp b))) = some [zrp, b]
      ∧ encode (mk (.mem (.zpx b))) = some [zpx, b] ∧ encode (mk (.mem (.abs w))) = some [abs, lo8 w, hi8 w]
      ∧ encode (mk (.mem (.abx w))) = some [abx, lo8 w, hi8 w] ∧ encode (mk (.mem (.aby w))) = some [aby, lo8 w, hi8 w]
      ∧ encode (mk (.mem (.izx b))) = some [izx, b] ∧ encode (mk (.mem (.izy b))) = some [izy, b]

/-- The bytes of each form of an instruction with the seven memory modes of STA: the cells of R104 that carry its label. -/
def MemoryEncodings (mk : MemMode → Instr) (zrp zpx abs abx aby izx izy : Byte) : Prop :=
  ∀ (b : Byte) (w : Word),
    encode (mk (.zrp b)) = some [zrp, b] ∧ encode (mk (.zpx b)) = some [zpx, b]
      ∧ encode (mk (.abs w)) = some [abs, lo8 w, hi8 w] ∧ encode (mk (.abx w)) = some [abx, lo8 w, hi8 w]
      ∧ encode (mk (.aby w)) = some [aby, lo8 w, hi8 w] ∧ encode (mk (.izx b)) = some [izx, b]
      ∧ encode (mk (.izy b)) = some [izy, b]

/-- The bytes of each form of an instruction with a register's immediate, zero-page and absolute modes (CPX, CPY). -/
def CompareEncodings (mk : Source → Instr) (imm zrp abs : Byte) : Prop :=
  ∀ (b : Byte) (w : Word),
    encode (mk (.imm b)) = some [imm, b] ∧ encode (mk (.mem (.zrp b))) = some [zrp, b]
      ∧ encode (mk (.mem (.abs w))) = some [abs, lo8 w, hi8 w]

/-- The bytes of each form of an instruction with the modes ZRP, ZPX, ABS and ABX (INC, DEC and the shifts on memory). -/
def ModifyEncodings (mk : MemMode → Instr) (zrp zpx abs abx : Byte) : Prop :=
  ∀ (b : Byte) (w : Word),
    encode (mk (.zrp b)) = some [zrp, b] ∧ encode (mk (.zpx b)) = some [zpx, b]
      ∧ encode (mk (.abs w)) = some [abs, lo8 w, hi8 w] ∧ encode (mk (.abx w)) = some [abx, lo8 w, hi8 w]

/-- The bytes of each form of the unofficial instructions: the cells R104 marks with a star, label by label (R106, R242). -/
def UnofficialEncodings : Prop :=
  MemoryEncodings .slo 0x07 0x17 0x0F 0x1F 0x1B 0x03 0x13 ∧ MemoryEncodings .rla 0x27 0x37 0x2F 0x3F 0x3B 0x23 0x33
    ∧ MemoryEncodings .sre 0x47 0x57 0x4F 0x5F 0x5B 0x43 0x53 ∧ MemoryEncodings .rra 0x67 0x77 0x6F 0x7F 0x7B 0x63 0x73
    ∧ MemoryEncodings .dcp 0xC7 0xD7 0xCF 0xDF 0xDB 0xC3 0xD3 ∧ MemoryEncodings .isc 0xE7 0xF7 0xEF 0xFF 0xFB 0xE3 0xF3
    ∧ (∀ op ∈ [0x02, 0x12, 0x22, 0x32, 0x42, 0x52, 0x62, 0x72, 0x92, 0xB2, 0xD2, 0xF2], encode (.kil op) = some [op])
    ∧ (∀ op ∈ [0x1A, 0x3A, 0x5A, 0x7A, 0xDA, 0xFA], encode (.nopUnofficial op .imp) = some [op])
    ∧ ∀ (b : Byte) (w : Word),
      (∀ op ∈ [0x80, 0x82, 0x89, 0xC2, 0xE2], encode (.nopUnofficial op (.imm b)) = some [op, b])
        ∧ (∀ op ∈ [0x04, 0x44, 0x64], encode (.nopUnofficial op (.mem (.zrp b))) = some [op, b])
        ∧ (∀ op ∈ [0x14, 0x34, 0x54, 0x74, 0xD4, 0xF4], encode (.nopUnofficial op (.mem (.zpx b))) = some [op, b])
        ∧ encode (.nopUnofficial 0x0C (.mem (.abs w))) = some [0x0C, lo8 w, hi8 w]
        ∧ (∀ op ∈ [0x1C, 0x3C, 0x5C, 0x7C, 0xDC, 0xFC],
            encode (.nopUnofficial op (.mem (.abx w))) = some [op, lo8 w, hi8 w])
        ∧ encode (.sax (.zrp b)) = some [0x87, b] ∧ encode (.sax (.zpy b)) = some [0x97, b]
        ∧ encode (.sax (.izx b)) = some [0x83, b] ∧ encode (.sax (.abs w)) = some [0x8F, lo8 w, hi8 w]
        ∧ encode (.lax (.imm b)) = some [0xAB, b] ∧ encode (.lax (.mem (.zrp b))) = some [0xA7, b]
        ∧ encode (.lax (.mem (.zpy b))) = some [0xB7, b] ∧ encode (.lax (.mem (.izx b))) = some [0xA3, b]
        ∧ encode (.lax (.mem (.izy b))) = some [0xB3, b] ∧ encode (.lax (.mem (.abs w))) = some [0xAF, lo8 w, hi8 w]
        ∧ encode (.lax (.mem (.aby w))) = some [0xBF, lo8 w, hi8 w]
        ∧ encode (.anc 0x0B b) = some [0x0B, b] ∧ encode (.anc 0x2B b) = some [0x2B, b]
        ∧ encode (.alr b) = some [0x4B, b] ∧ encode (.arr b) = some [0x6B, b] ∧ encode (.xaa b) = some [0x8B, b]
        ∧ encode (.axs b) = some [0xCB, b] ∧ encode (.usbc b) = some [0xEB, b]
        ∧ encode (.ahx (.izy b)) = some [0x93, b] ∧ encode (.ahx (.aby w)) = some [0x9F, lo8 w, hi8 w]
        ∧ encode (.tas w) = some [0x9B, lo8 w, hi8 w] ∧ encode (.shy w) = some [0x9C, lo8 w, hi8 w]
        ∧ encode (.shx w) = some [0x9E, lo8 w, hi8 w] ∧ encode (.las w) = some [0xBB, lo8 w, hi8 w]

/-- PC after an instruction that does not redirect it: fetch address + length mod 2^16 (R32, R92). -/
def nextPc (s : State) (i : Instr) : Word :=
  s.cpu.pc + BitVec.ofNat 16 i.length

/-- The flags with Z and N of a result: "Zero := result==0; Negative := bit7(result)" (R24). -/
def flagsZN (p : Status) (r : Byte) : Status :=
  { p with z := decide (r = 0#8), n := r.getLsbD 7 }

/-- A 16-bit value from its high and low byte, `hi:lo` of R11. -/
def word (hi lo : Byte) : Word :=
  BitVec.ofNat 16 (hi.toNat * 256 + lo.toNat)

/-- What a shift or rotate does in each form: A in IMP mode, one read and one write of ea in memory (R94, R180 to R183). `r` gives the result from the
old carry and M, `out` the bit shifted out. -/
def ShiftCompletes (mk : Target → Instr) (r : Bool → Byte → Byte) (out : Byte → Bool) : Prop :=
  (∀ s : State, exec (mk .acc) s = .next
    { s with cpu := { s.cpu with
        a := r s.cpu.p.c s.cpu.a
        p := { flagsZN s.cpu.p (r s.cpu.p.c s.cpu.a) with c := out s.cpu.a }
        pc := nextPc s (mk .acc) } })
    ∧ ∀ (m : MemMode) (s : State),
      let ea := effectiveAddress m s
      let read := cpuRead ea s
      let u := cpuWrite ea (r s.cpu.p.c read.1) read.2
      exec (mk (.mem m)) s = .next
        { u with cpu := { u.cpu with
            p := { flagsZN s.cpu.p (r s.cpu.p.c read.1) with c := out read.1 }
            pc := nextPc s (mk (.mem m)) } }

/-- What a branch does: PC is f + 2, plus the sign-extended offset when the condition holds, and nothing else changes (R193). -/
def BranchCompletes (mk : Byte → Instr) (taken : Status → Bool) : Prop :=
  ∀ (b : Byte) (s : State), exec (mk b) s = .next
    { s with cpu := { s.cpu with
        pc := if taken s.cpu.p then
            s.cpu.pc + 2 + (if b.getLsbD 7 then b.setWidth 16 + 0xFF00 else b.setWidth 16)
          else s.cpu.pc + 2 } }

/-- `n` PPU ticks. -/
def ppuTicks : Nat → State → State
  | 0, s => s
  | n + 1, s => ppuTicks n (ppuTick s)

/-- Pushes a list of bytes, the first one first. -/
def pushAll : List Byte → State → State
  | [], s => s
  | v :: vs, s => pushAll vs (push v s)

/-- Pops `n` bytes, the first popped first. -/
def popMany : Nat → State → List Byte × State
  | 0, s => ([], s)
  | n + 1, s =>
    let r := pop s
    let rest := popMany n r.2
    (r.1 :: rest.1, rest.2)

end Sys2Proof.Machine
end

