-- ==== Sys2Proof/Certificates/Slice0/Obligations.lean ====
section
/-!
DEFINITION. The statements for the provers, from the spec's numbered rules. Frames are written `t.cpu = { s.cpu with a := t.cpu.a, … }`: the named
registers may change, every other one is as before.
-/

open Sys2Proof Sys2Proof.Machine

/-! ## Encoding -/

/-- Decoding the bytes of a well-formed instruction gives it back, with every operand at every value, and leaves the bytes after it (R90, R91, R104). -/
def Obligations.DecodeOfEncode : Prop :=
  ∀ (i : Instr) (rest : List Byte), i.wf = true →
    ∃ bytes, encode i = some bytes ∧ bytes.length = i.length ∧ decode (bytes ++ rest) = .ok (i, rest)

/-- Every byte decodes, to exactly one row, whose length the byte alone fixes; the bytes consumed are the instruction's encoding; and whatever is decoded
executes, so there is no illegal-instruction trap (R93). -/
def Obligations.EveryByteDecodes : Prop :=
  ∀ (op b1 b2 : Byte) (rest : List Byte),
    ∃ i, decode (op :: b1 :: b2 :: rest) = .ok (i, (op :: b1 :: b2 :: rest).drop i.length)
      ∧ i.wf = true ∧ i.length = opcodeLength op
      ∧ encode i = some ((op :: b1 :: b2 :: rest).take i.length)
      ∧ ∀ s : State, ∃ t, exec i s = .next t

/-- Words written out from the spec's examples decode to the instructions they stand for (R130, R133, R150, R180, R190, R194, R220, R241). -/
def Obligations.ExampleWordsDecode : Prop :=
  decode [0xA9, 0x80] = .ok (.lda (.imm 0x80), [])
    ∧ decode [0x8D, 0x00, 0x08] = .ok (.sta (.abs 0x0800), [])
    ∧ decode [0x69, 0x7F] = .ok (.adc (.imm 0x7F), [])
    ∧ decode [0x0A] = .ok (.asl .acc, [])
    ∧ decode [0x4C, 0x00, 0xC0] = .ok (.jmp (.abs 0xC000), [])
    ∧ decode [0x10, 0xEE] = .ok (.bpl 0xEE, [])
    ∧ decode [0x00] = .ok (.brk, [])
    ∧ decode [0xA7, 0x10] = .ok (.lax (.mem (.zrp 0x10)), [])

/-- The effective address of every memory mode, as arithmetic on addresses (R97, R98, R99, R101, R102), and what `Operand()` reads (R95, R103). The
pointer's high byte follows the parameter of D7. -/
def Obligations.EffectiveAddresses : Prop :=
  ∀ (s : State) (b : Byte) (w : Word),
    let high := fun z : Nat => if s.params.zpPointerWrap then (z + 1) % 256 else z + 1
    let pointer := fun z : Nat => 256 * (s.ram.read (high z)).toNat + (s.ram.read z).toNat
    (effectiveAddress (.zrp b) s).toNat = b.toNat
      ∧ (effectiveAddress (.zpx b) s).toNat = (b.toNat + s.cpu.x.toNat) % 256
      ∧ (effectiveAddress (.zpy b) s).toNat = (b.toNat + s.cpu.y.toNat) % 256
      ∧ effectiveAddress (.abs w) s = w
      ∧ (effectiveAddress (.abx w) s).toNat = (w.toNat + s.cpu.x.toNat) % 65536
      ∧ (effectiveAddress (.aby w) s).toNat = (w.toNat + s.cpu.y.toNat) % 65536
      ∧ (effectiveAddress (.izx b) s).toNat = pointer ((b.toNat + s.cpu.x.toNat) % 256)
      ∧ (effectiveAddress (.izy b) s).toNat = (pointer b.toNat + s.cpu.y.toNat) % 65536
      ∧ readSource (.imm b) s = (b, s)
      ∧ ∀ m, readSource (.mem m) s = cpuRead (effectiveAddress m s) s

/-! ## Session construction -/

/-- A session at construction: R42's values, the launch values where the source is silent (D13, D16, D21, D22), every memory byte as launched. -/
def Obligations.LaunchState : Prop :=
  ∀ (cart : Cartridge) (params : Params) (l : Launch),
    let s := State.launch cart params l
    s.cpu = { a := l.a, x := l.x, y := l.y, sp := 0xFF, pc := 0x8000, p := l.p, halted := false, nmiPending := false }
      ∧ s.ppu = {
          scanline := 0, cycle := 0, oddFrame := false, v := 0, t := 0, x := 0, w := false, vblank := false
          sprite0Hit := false, spriteOverflow := false, ctrl := 0, mask := 0, oamAddr := 0, latch := 0, readBuffer := 0 }
      ∧ s.cart = cart ∧ s.params = params
      ∧ (∀ k < 0x800, s.ram.read k = l.ram.getD k 0)
      ∧ (∀ k < 0x800, s.ciram.read k = l.ciram.getD k 0)
      ∧ (∀ k < 0x20, s.palette.read k = l.palette.getD k 0)
      ∧ (cart.chrRom = none → ∀ k < 0x2000, s.chrRam.read k = l.chrRam.getD k 0)

/-- Construction accepts exactly the configurations of R323 (D20), and then the bus shows the image in the PRG window, the first fetch reading prg[0] at
$8000 (R55, R321), and an 8192-byte chr in the pattern range (R70; D29, which the spec rests on general knowledge, G6, log 10). -/
def Obligations.ConstructionChecksAndMapsPrg : Prop :=
  ∀ (prg chr : List Byte) (mirroring : Mirroring) (params : Params) (l : Launch),
    let accepted := (prg.length = 16384 ∨ prg.length = 32768) ∧ (chr.length = 0 ∨ chr.length = 8192)
    (¬accepted → State.construct prg chr mirroring params l = .error (.badCartridge prg.length chr.length))
      ∧ (accepted → ∃ s, State.construct prg chr mirroring params l = .ok s ∧ s.cpu.pc = 0x8000
          ∧ byteAt s s.cpu.pc = prg.getD 0 0
          ∧ (∀ a : Word, 0x8000 ≤ a.toNat → byteAt s a = prg.getD ((a.toNat - 0x8000) % prg.length) 0)
          ∧ ∀ k < 0x2000, chr.length = 8192 → videoRead s k = chr.getD k 0)

/-- The reset state of the model meets the invariant (logs 1 to 5 name its launch values, cartridge, parameters and schedule). -/
def Obligations.ResetMeetsInvariant : Prop :=
  State.reset.Inv

/-- Every session construction meets the invariant, whatever its launch values. -/
def Obligations.LaunchMeetsInvariant : Prop :=
  ∀ (cart : Cartridge) (params : Params) (l : Launch), SoundCartridge cart → SoundParams params → (State.launch cart params l).Inv

/-! ## The whole machine -/

/-- Every step, of either agent, keeps the invariant: memories stay canonical and in size, counters in range, an unhalted core in the PRG window, the
sprite flags clear. -/
def Obligations.StepKeepsInvariant : Prop :=
  ∀ s t : State, s.Inv → step s = .next t → t.Inv

/-- No state stops the model: a step always has a next state. Decode is total (R93) and no rule raises a fault (R19, R250). -/
def Obligations.StepAlwaysAnswers : Prop :=
  ∀ s : State, ∃ t, step s = .next t

/-- The configuration of a session never changes (R8, R40). -/
def Obligations.StepKeepsConfiguration : Prop :=
  ∀ s t : State, step s = .next t → t.cart = s.cart ∧ t.params = s.params

/-- A halted core does nothing and never runs again (R35, R253, R306; D18, D41): its CPU tick changes no state, and after any step it is still halted,
with every CPU register as before; only the PPU may still set nmi_pending. -/
def Obligations.HaltedCoreDoesNothing : Prop :=
  ∀ s : State, s.cpu.halted = true →
    cpuTick s = .next s
      ∧ ∀ t, step s = .next t →
        t.cpu = { s.cpu with nmiPending := t.cpu.nmiPending } ∧ (s.cpu.nmiPending = true → t.cpu.nmiPending = true)

/-- A PPU tick touches the CPU only through the NMI slot, which it can only set and only at (241, 1) with ctrl[7] = 1; it touches no memory, and of its
own registers only the counters, v and the three status bits (R7, R36, R273, R282). -/
def Obligations.PpuTickFrame : Prop :=
  ∀ s : State,
    let t := ppuTick s
    t = { s with ppu := t.ppu, cpu := { s.cpu with nmiPending := t.cpu.nmiPending } }
      ∧ t.ppu = { s.ppu with
          scanline := t.ppu.scanline, cycle := t.ppu.cycle, oddFrame := t.ppu.oddFrame, v := t.ppu.v,
          vblank := t.ppu.vblank, sprite0Hit := t.ppu.sprite0Hit, spriteOverflow := t.ppu.spriteOverflow }
      ∧ t.cpu.nmiPending =
          (s.cpu.nmiPending || (decide (t.ppu.scanline = 241 ∧ t.ppu.cycle = 1) && s.ppu.ctrl.getLsbD 7))

/-- P.I has no effect on control flow (R25): a step from a state that differs only in P.I ends with the same registers but for P.I, the same PPU and the
same VideoMemory. -/
def Obligations.InterruptDisableMasksNothing : Prop :=
  ∀ (s t : State) (b : Bool), step s = .next t →
    ∃ u, step { s with cpu := { s.cpu with p := { s.cpu.p with i := b } } } = .next u
      ∧ u.cpu = { t.cpu with p := { t.cpu.p with i := u.cpu.p.i } }
      ∧ u.ppu = t.ppu ∧ u.ciram = t.ciram ∧ u.palette = t.palette ∧ u.chrRam = t.chrRam

/-- The CPU tick of a running core in the PRG window is exec of the instruction whose bytes stand at PC, then the runaway guard (R252, R254), then the
host's record of the tick (log 5); whatever exec answers, and for a next state `u` spelled out. -/
def Obligations.StepRunsDecodedInstruction : Prop :=
  ∀ (s : State) (i : Instr) (rest : List Byte),
    nextAgent s = .cpu → s.cpu.halted = false → s.cpu.nmiPending = false → 0x8000 ≤ s.cpu.pc.toNat →
    decode [byteAt s s.cpu.pc, byteAt s (s.cpu.pc + 1), byteAt s (s.cpu.pc + 2)] = .ok (i, rest) →
    step s = consumed (guarded (exec i s))
      ∧ ∀ u, exec i s = .next u → step s = .next (consumeChoice
          { u with cpu := { u.cpu with halted := u.cpu.halted || decide (u.cpu.pc.toNat < 0x8000) } })

/-- A pending NMI is taken before any fetch and takes the whole tick: three pushes (PC high, PC low, status with B as `NMI_PUSHES_BREAK` says), PC from
$FFFA, I set, the slot cleared; the runaway guard then checks PC (R254, R258, R260 to R262; D11, D12, D13). -/
def Obligations.NmiIsTakenBeforeTheFetch : Prop :=
  ∀ s : State, s.cpu.halted = false → s.cpu.nmiPending = true →
    let p := { s.cpu.p with b := s.params.nmiPushesBreak }
    let pc := wordAt s 0xFFFA
    cpuTick s = .next { s with
      ram := ((s.ram.write (0x100 + s.cpu.sp.toNat) (hi8 s.cpu.pc)).write (0x100 + (s.cpu.sp - 1).toNat) (lo8 s.cpu.pc)).write
        (0x100 + (s.cpu.sp - 2).toNat) p.serialize
      cpu := { s.cpu with
        sp := s.cpu.sp - 3, p := { p with i := true }, pc := pc, nmiPending := false, halted := decide (pc.toNat < 0x8000) } }

/-- The host chooses every tick (R300): with a choice queued the step is that agent's tick and the choice is used up; with none queued the reference
scheduler runs one CPU tick and then `PPU_TICKS_PER_CPU_TICK` PPU ticks (R301; log 5). -/
def Obligations.HostChoosesTheTickingAgent : Prop :=
  ∀ s t : State,
    (∀ agent rest, s.schedule = agent :: rest → tick agent s = .next t → step s = .next { t with schedule := rest })
      ∧ (s.schedule = [] → s.ppuOwed = 0 → tick .cpu s = .next t →
          step s = .next { t with ppuOwed := s.params.ppuTicksPerCpuTick })
      ∧ ∀ k, s.schedule = [] → s.ppuOwed = k + 1 → tick .ppu s = .next t → step s = .next { t with ppuOwed := k }

/-! ## The CPU bus -/

/-- The bus primitives, range by range (R56). -/
def Obligations.CpuBusMap : Prop :=
  ∀ (s : State) (a : Word) (v : Byte),
    (a.toNat < 0x2000 →
        cpuRead a s = (s.ram.read (a &&& 0x07FF).toNat, s)
          ∧ cpuWrite a v s = { s with ram := s.ram.write (a &&& 0x07FF).toNat v })
      ∧ (0x2000 ≤ a.toNat ∧ a.toNat < 0x4000 →
        cpuRead a s = ppuRegRead (a &&& 7).toNat s ∧ cpuWrite a v s = ppuRegWrite (a &&& 7).toNat v s)
      ∧ (0x4000 ≤ a.toNat → cpuWrite a v s = s)
      ∧ (0x4000 ≤ a.toNat ∧ a.toNat < 0x8000 → cpuRead a s = (0, s))
      ∧ (0x8000 ≤ a.toNat →
        cpuRead a s =
          (s.cart.prg.read ((a.toNat - 0x8000) % (match s.cart.prgSize with | .k16 => 16384 | .k32 => 32768)), s))

/-- A write below $2000 is seen at the four mirrors of its cell and at no other address (R52). -/
def Obligations.RamMirrors : Prop :=
  ∀ (s : State) (a b : Word) (v : Byte), s.ram.wf = true → a.toNat < 0x2000 →
    byteAt (cpuWrite a v s) b = if b.toNat < 0x2000 ∧ b.toNat % 0x800 = a.toNat % 0x800 then v else byteAt s b

/-- Push stores at $0100 + SP then decrements SP; pop increments SP then loads; both wrap mod 256, which is no error (R34, R60, R61). -/
def Obligations.PushAndPop : Prop :=
  ∀ (s : State) (v : Byte),
    push v s = { s with ram := s.ram.write (0x100 + s.cpu.sp.toNat) v, cpu := { s.cpu with sp := BitVec.ofNat 8 (s.cpu.sp.toNat + 255) } }
      ∧ pop s = (s.ram.read (0x100 + (s.cpu.sp.toNat + 1) % 256),
          { s with cpu := { s.cpu with sp := BitVec.ofNat 8 (s.cpu.sp.toNat + 1) } })

/-- Pushing up to 256 bytes and popping as many returns them in reverse order and restores SP (R62). The bound is the model's reading: more than 256 bytes
overwrite the first ones, since the stack wraps (R34, R264). -/
def Obligations.StackRoundTrip : Prop :=
  ∀ (s : State) (bytes : List Byte), s.ram.wf = true → bytes.length ≤ 256 →
    (popMany bytes.length (pushAll bytes s)).1 = bytes.reverse
      ∧ (popMany bytes.length (pushAll bytes s)).2.cpu = s.cpu

/-- The status byte: each flag in its bit, bits 3 and 5 zero (D15); both round trips (R29, R30, R31). -/
def Obligations.StatusByteRoundTrip : Prop :=
  (∀ p : Status,
    p.serialize.toNat = p.c.toNat + 2 * p.z.toNat + 4 * p.i.toNat + 16 * p.b.toNat + 64 * p.v.toNat + 128 * p.n.toNat
      ∧ Status.deserialize p.serialize = p)
    ∧ ∀ b : Byte, (Status.deserialize b).serialize = b &&& 0xD7

/-- Silent effects: writes from $4000 up are dropped, $4000 to $7FFF reads 0, the stack and PC wrap, and none of them raises anything (R337). -/
def Obligations.SilentEffects : Prop :=
  ∀ (s : State) (a : Word) (v : Byte) (n : Nat),
    (0x4000 ≤ a.toNat → cpuWrite a v s = s)
      ∧ (0x4000 ≤ a.toNat ∧ a.toNat < 0x8000 → byteAt s a = 0)
      ∧ (s.cpu.sp = 0 → (push v s).cpu = { s.cpu with sp := 0xFF })
      ∧ (s.cpu.sp = 0xFF → (pop s).2.cpu = { s.cpu with sp := 0 })
      ∧ (s.advance n).cpu.pc.toNat = (s.cpu.pc.toNat + n) % 65536

/-! ## VideoMemory and the PPU's registers -/

/-- The PPU bus (R69 to R73; D29, with the backing memories from general knowledge, G6, log 10): addresses mod $4000; the cell each range reaches, for
reads and for writes: chr, read only, or chr_ram[a]; ciram by the mirroring; palette[p]; then the mirrors this gives, and a read after a write. -/
def Obligations.VideoMemoryMap : Prop :=
  ∀ (s : State) (a b : Nat) (d : Byte),
    let o := (a - 0x2000) &&& 0x0FFF
    let n := o >>> 10
    let k := o &&& 0x03FF
    let cell := match s.cart.mirroring with | .horizontal => (n >>> 1) * 0x400 + k | .vertical => (n &&& 1) * 0x400 + k
    let p := a &&& 0x1F
    let entry := if p = 0x10 ∨ p = 0x14 ∨ p = 0x18 ∨ p = 0x1C then p - 0x10 else p
    videoRead s a = videoRead s (a % 0x4000) ∧ videoWrite s a d = videoWrite s (a % 0x4000) d
      ∧ (a < 0x2000 → s.cart.chrRom = none →
          videoCell s.cart a = .chrRam a ∧ videoRead s a = s.chrRam.read a
            ∧ videoWrite s a d = { s with chrRam := s.chrRam.write a d })
      ∧ (∀ rom, a < 0x2000 → s.cart.chrRom = some rom →
          videoCell s.cart a = .chrRom a ∧ videoRead s a = rom.read a ∧ videoWrite s a d = s)
      ∧ (0x2000 ≤ a → a < 0x3F00 →
          videoCell s.cart a = .ciram cell ∧ videoRead s a = s.ciram.read cell
            ∧ videoWrite s a d = { s with ciram := s.ciram.write cell d })
      ∧ (0x3F00 ≤ a → a < 0x4000 →
          videoCell s.cart a = .palette entry ∧ videoRead s a = s.palette.read entry
            ∧ videoWrite s a d = { s with palette := s.palette.write entry d })
      ∧ (0x3000 ≤ a ∧ a < 0x3F00 → videoRead s a = videoRead s (a - 0x1000))
      ∧ (a < 0x400 → videoRead s (0x2000 + a) =
          videoRead s (match s.cart.mirroring with | .horizontal => 0x2400 + a | .vertical => 0x2800 + a))
      ∧ (a < 0x400 → videoRead s (0x2C00 + a) =
          videoRead s (match s.cart.mirroring with | .horizontal => 0x2800 + a | .vertical => 0x2400 + a))
      ∧ (a < 4 → videoRead s (0x3F10 + 4 * a) = videoRead s (0x3F00 + 4 * a))
      ∧ (a < 0xE0 → videoRead s (0x3F20 + a) = videoRead s (0x3F00 + a))
      ∧ (s.Sound →
        videoRead (videoWrite s a d) b =
          if videoCell s.cart b = videoCell s.cart a ∧ ¬(a % 0x4000 < 0x2000 ∧ s.cart.chrRom.isSome = true) then d
          else videoRead s b)

/-- A read of register 0, 1, 3, 4, 5 or 6 returns the latch and changes no state (R288). -/
def Obligations.WriteOnlyRegistersReadTheLatch : Prop :=
  ∀ (s : State) (n : Nat), n = 0 ∨ n = 1 ∨ n = 3 ∨ n = 4 ∨ n = 5 ∨ n = 6 → ppuRegRead n s = (s.ppu.latch, s)

/-- Register 2 (R285, R289): the status bits over the latch's low five, w and the sprite flags cleared, vblank not; a second read, at any mirror, returns the
same byte when no sprite flag was set (R53). -/
def Obligations.StatusRegisterRead : Prop :=
  ∀ (s : State) (a b : Word), InAperture a → InAperture b → ppuRegister a = 2 → ppuRegister b = 2 →
    let r := byteAt s a
    r.toNat = 128 * s.ppu.vblank.toNat + 64 * s.ppu.sprite0Hit.toNat + 32 * s.ppu.spriteOverflow.toNat + s.ppu.latch.toNat % 32
      ∧ (cpuRead a s).2 = { s with ppu := { s.ppu with w := false, sprite0Hit := false, spriteOverflow := false, latch := r } }
      ∧ (s.ppu.sprite0Hit = false → s.ppu.spriteOverflow = false → byteAt (cpuRead a s).2 b = r)

/-- Register 7 (R294, R296; D26): VideoMemory at v, then v moves by 1 or 32 mod 2^15; the buffered variant returns the buffer below $3F00. -/
def Obligations.DataRegisterAccess : Prop :=
  ∀ (s : State) (d : Byte),
    let v := s.ppu.v.toNat
    let v' := BitVec.ofNat 15 (v + if s.ppu.ctrl.getLsbD 2 then 32 else 1)
    (s.params.ppudataReadBuffered = false →
        ppuRegRead 7 s = (videoRead s v, { s with ppu := { s.ppu with v := v', latch := videoRead s v } }))
      ∧ (s.params.ppudataReadBuffered = true → v % 0x4000 < 0x3F00 →
        ppuRegRead 7 s =
          (s.ppu.readBuffer, { s with ppu := { s.ppu with v := v', latch := s.ppu.readBuffer, readBuffer := videoRead s v } }))
      ∧ (s.params.ppudataReadBuffered = true → 0x3F00 ≤ v % 0x4000 →
        ppuRegRead 7 s =
          (videoRead s v, { s with ppu := { s.ppu with v := v', latch := videoRead s v, readBuffer := videoRead s (v - 0x1000) } }))
      ∧ ppuRegWrite 7 d s =
          { videoWrite s v d with ppu := { s.ppu with latch := d, v := v' } }

/-- Registers 0 to 4 on a write (R290, R291, R292, R293; D28, D39): the latch always, then control with the nametable bits into t and the immediate NMI on
a 0-to-1 change of bit 7 during vblank, mask, OAM address; 2 and 4 nothing more. -/
def Obligations.ControlRegisterWrites : Prop :=
  ∀ (s : State) (d : Byte),
    (∃ t : Loopy, t.extractLsb' 10 2 = d.extractLsb' 0 2
        ∧ (∀ k, k < 10 ∨ 12 ≤ k → t.getLsbD k = s.ppu.t.getLsbD k)
        ∧ ppuRegWrite 0 d s = { s with
            ppu := { s.ppu with latch := d, ctrl := d, t := t }
            cpu := { s.cpu with
              nmiPending := s.cpu.nmiPending || (!s.ppu.ctrl.getLsbD 7 && d.getLsbD 7 && s.ppu.vblank) } })
      ∧ ppuRegWrite 1 d s = { s with ppu := { s.ppu with latch := d, mask := d } }
      ∧ ppuRegWrite 2 d s = { s with ppu := { s.ppu with latch := d } }
      ∧ ppuRegWrite 3 d s = { s with ppu := { s.ppu with latch := d, oamAddr := d } }
      ∧ ppuRegWrite 4 d s = { s with ppu := { s.ppu with latch := d } }

/-- Registers 5 and 6, bit by bit (R295, C3): which bits of t, x and v each write of the pair sets, every other bit unchanged. -/
def Obligations.ScrollAndAddressWrites : Prop :=
  ∀ (s : State) (d : Byte),
    (s.ppu.w = false → ∃ t : Loopy,
        t.extractLsb' 0 5 = d.extractLsb' 3 5 ∧ (∀ k, 5 ≤ k → t.getLsbD k = s.ppu.t.getLsbD k)
          ∧ ppuRegWrite 5 d s = { s with ppu := { s.ppu with latch := d, t := t, x := d.extractLsb' 0 3, w := true } })
      ∧ (s.ppu.w = true → ∃ t : Loopy,
        t.extractLsb' 12 3 = d.extractLsb' 0 3 ∧ t.extractLsb' 5 5 = d.extractLsb' 3 5
          ∧ (∀ k, k < 5 ∨ (10 ≤ k ∧ k < 12) → t.getLsbD k = s.ppu.t.getLsbD k)
          ∧ ppuRegWrite 5 d s = { s with ppu := { s.ppu with latch := d, t := t, w := false } })
      ∧ (s.ppu.w = false → ∃ t : Loopy,
        t.extractLsb' 8 6 = d.extractLsb' 0 6 ∧ t.getLsbD 14 = false ∧ (∀ k, k < 8 → t.getLsbD k = s.ppu.t.getLsbD k)
          ∧ ppuRegWrite 6 d s = { s with ppu := { s.ppu with latch := d, t := t, w := true } })
      ∧ (s.ppu.w = true → ∃ t : Loopy,
        t.extractLsb' 0 8 = d ∧ (∀ k, 8 ≤ k → t.getLsbD k = s.ppu.t.getLsbD k)
          ∧ ppuRegWrite 6 d s = { s with ppu := { s.ppu with latch := d, t := t, v := t, w := false } })

/-! ## The PPU tick -/

/-- v's increments and copy, bit by bit (R274, R275, R277). -/
def Obligations.LoopyRegisterSteps : Prop :=
  ∀ v t : Loopy,
    let x := v.toNat % 32
    let y := v.toNat / 32 % 32
    let fine := v.toNat / 4096
    ((incrementCoarseX v).toNat % 32 = (x + 1) % 32
        ∧ (incrementCoarseX v).getLsbD 10 = (v.getLsbD 10 ^^ decide (x = 31))
        ∧ ∀ k, 5 ≤ k → k ≠ 10 → (incrementCoarseX v).getLsbD k = v.getLsbD k)
      ∧ ((incrementY v).toNat / 4096 = (fine + 1) % 8
        ∧ (incrementY v).toNat / 32 % 32 = (if fine < 7 then y else if y = 29 ∨ y = 31 then 0 else y + 1)
        ∧ (incrementY v).getLsbD 11 = (v.getLsbD 11 ^^ decide (fine = 7 ∧ y = 29))
        ∧ ∀ k, k < 5 ∨ k = 10 → (incrementY v).getLsbD k = v.getLsbD k)
      ∧ ∀ k, (copyHorizontal v t).getLsbD k = if k < 5 ∨ k = 10 then t.getLsbD k else v.getLsbD k

/-- The counters over a whole frame (R271, R272; D23): k ticks from (0, 0) reach (k / 341, k mod 341), so 341 ticks make a scanline; an even frame is 89342
ticks, and an odd one, with the rendering gate off, 89341. -/
def Obligations.FrameOfPpuTicks : Prop :=
  ∀ s : State, s.ppu.scanline = 0 → s.ppu.cycle = 0 →
    (s.ppu.oddFrame = false →
        (∀ k < 89342, (ppuTicks k s).ppu.scanline = k / 341 ∧ (ppuTicks k s).ppu.cycle = k % 341
            ∧ (ppuTicks k s).ppu.oddFrame = false)
          ∧ (ppuTicks 89342 s).ppu.scanline = 0 ∧ (ppuTicks 89342 s).ppu.cycle = 0 ∧ (ppuTicks 89342 s).ppu.oddFrame = true)
      ∧ (s.ppu.oddFrame = true → s.params.renderingGate = false →
        (∀ k < 89341, (ppuTicks k s).ppu.scanline = k / 341 ∧ (ppuTicks k s).ppu.cycle = k % 341
            ∧ (ppuTicks k s).ppu.oddFrame = true)
          ∧ (ppuTicks 89341 s).ppu.scanline = 0 ∧ (ppuTicks 89341 s).ppu.cycle = 0 ∧ (ppuTicks 89341 s).ppu.oddFrame = false)

/-- One PPU tick moves the counters (R271, R272): the dot (261, 340) is passed over on an odd frame unless the gate is on and mask[4:3] is 0. -/
def Obligations.PpuCountersAdvance : Prop :=
  ∀ s : State, s.ppu.scanline < 262 → s.ppu.cycle < 341 →
    let t := ppuTick s
    let skip := s.ppu.oddFrame = true ∧ s.ppu.scanline = 261 ∧ s.ppu.cycle = 339
      ∧ (s.params.renderingGate = false ∨ s.ppu.mask.getLsbD 3 = true ∨ s.ppu.mask.getLsbD 4 = true)
    (skip → t.ppu.scanline = 0 ∧ t.ppu.cycle = 0 ∧ t.ppu.oddFrame = false)
      ∧ (¬skip → s.ppu.cycle < 340 →
        t.ppu.scanline = s.ppu.scanline ∧ t.ppu.cycle = s.ppu.cycle + 1 ∧ t.ppu.oddFrame = s.ppu.oddFrame)
      ∧ (s.ppu.cycle = 340 → s.ppu.scanline < 261 →
        t.ppu.scanline = s.ppu.scanline + 1 ∧ t.ppu.cycle = 0 ∧ t.ppu.oddFrame = s.ppu.oddFrame)
      ∧ (s.ppu.cycle = 340 → s.ppu.scanline = 261 →
        t.ppu.scanline = 0 ∧ t.ppu.cycle = 0 ∧ t.ppu.oddFrame = !s.ppu.oddFrame)

/-- v by the position a tick reaches (R273, R278, R279): coarse X at 8, 16, …, 256, Y also at 256, the copy at 257, all on scanlines 0 to 239 and, with the
gate on, only while mask[3] or mask[4] is 1; unchanged everywhere else, the pre-render line included. -/
def Obligations.ScrollEventsByPosition : Prop :=
  ∀ s : State,
    let t := ppuTick s
    let c := t.ppu.cycle
    let visible := t.ppu.scanline < 240
      ∧ (s.params.renderingGate = false ∨ s.ppu.mask.getLsbD 3 = true ∨ s.ppu.mask.getLsbD 4 = true)
    (visible → c = 256 → t.ppu.v = incrementY (incrementCoarseX s.ppu.v))
      ∧ (visible → c = 257 → t.ppu.v = copyHorizontal s.ppu.v s.ppu.t)
      ∧ (visible → 8 ≤ c ∧ c < 256 ∧ c % 8 = 0 → t.ppu.v = incrementCoarseX s.ppu.v)
      ∧ (¬(visible ∧ ((8 ≤ c ∧ c ≤ 256 ∧ c % 8 = 0) ∨ c = 257)) → t.ppu.v = s.ppu.v)

/-- Vblank (R280, R281, R282; D25): set, with the NMI if ctrl[7] is 1, by the tick that reaches (241, 1); cleared with the sprite flags by the one that reaches
(261, 1); every other tick leaves the status bits and the NMI slot alone. -/
def Obligations.VblankAndNmiSignal : Prop :=
  ∀ s : State,
    let t := ppuTick s
    let starts := t.ppu.scanline = 241 ∧ t.ppu.cycle = 1
    let ends := t.ppu.scanline = 261 ∧ t.ppu.cycle = 1
    (starts → t.ppu.vblank = true ∧ t.cpu.nmiPending = (s.cpu.nmiPending || s.ppu.ctrl.getLsbD 7))
      ∧ (ends → t.ppu.vblank = false ∧ t.ppu.sprite0Hit = false ∧ t.ppu.spriteOverflow = false)
      ∧ (¬starts → t.cpu.nmiPending = s.cpu.nmiPending)
      ∧ (¬starts → ¬ends → t.ppu.vblank = s.ppu.vblank)
      ∧ (¬ends → t.ppu.sprite0Hit = s.ppu.sprite0Hit ∧ t.ppu.spriteOverflow = s.ppu.spriteOverflow)

/-! ## Instructions: what each completes with -/

/-- LDA, LDX, LDY complete in every form: the register gets M, Z and N follow it, PC is f + length (R130, R131, R132; which mnemonic does
what is G4); their bytes (G3). -/
def Obligations.LoadsComplete : Prop :=
  (∀ (src : Source) (s : State),
    let r := readSource src s
    exec (.lda src) s = .next { r.2 with cpu := { s.cpu with a := r.1, p := flagsZN s.cpu.p r.1, pc := nextPc s (.lda src) } }
      ∧ exec (.ldx src) s = .next { r.2 with cpu := { s.cpu with x := r.1, p := flagsZN s.cpu.p r.1, pc := nextPc s (.ldx src) } }
      ∧ exec (.ldy src) s = .next { r.2 with cpu := { s.cpu with y := r.1, p := flagsZN s.cpu.p r.1, pc := nextPc s (.ldy src) } })
    ∧ AccumulatorEncodings .lda 0xA9 0xA5 0xB5 0xAD 0xBD 0xB9 0xA1 0xB1
    ∧ ∀ (b : Byte) (w : Word),
      encode (.ldx (.imm b)) = some [0xA2, b] ∧ encode (.ldx (.mem (.zrp b))) = some [0xA6, b]
        ∧ encode (.ldx (.mem (.zpy b))) = some [0xB6, b] ∧ encode (.ldx (.mem (.abs w))) = some [0xAE, lo8 w, hi8 w]
        ∧ encode (.ldx (.mem (.aby w))) = some [0xBE, lo8 w, hi8 w]
        ∧ encode (.ldy (.imm b)) = some [0xA0, b] ∧ encode (.ldy (.mem (.zrp b))) = some [0xA4, b]
        ∧ encode (.ldy (.mem (.zpx b))) = some [0xB4, b] ∧ encode (.ldy (.mem (.abs w))) = some [0xAC, lo8 w, hi8 w]
        ∧ encode (.ldy (.mem (.abx w))) = some [0xBC, lo8 w, hi8 w]

/-- STA, STX, STY complete in every form: one bus write of the register at ea, after one bus read of it when `EAGER_OPERAND_READ` is true; no flag (R133, R134,
R135; G4); their bytes (G3). -/
def Obligations.StoresComplete : Prop :=
  (∀ (dst : MemMode) (s : State),
    let ea := effectiveAddress dst s
    let u := if s.params.eagerOperandRead then (cpuRead ea s).2 else s
    let done := fun (v : Byte) (i : Instr) =>
      { cpuWrite ea v u with cpu := { (cpuWrite ea v u).cpu with pc := nextPc s i } }
    exec (.sta dst) s = .next (done s.cpu.a (.sta dst))
      ∧ exec (.stx dst) s = .next (done s.cpu.x (.stx dst))
      ∧ exec (.sty dst) s = .next (done s.cpu.y (.sty dst)))
    ∧ ∀ (b : Byte) (w : Word),
      encode (.sta (.zrp b)) = some [0x85, b] ∧ encode (.sta (.zpx b)) = some [0x95, b]
        ∧ encode (.sta (.abs w)) = some [0x8D, lo8 w, hi8 w] ∧ encode (.sta (.abx w)) = some [0x9D, lo8 w, hi8 w]
        ∧ encode (.sta (.aby w)) = some [0x99, lo8 w, hi8 w] ∧ encode (.sta (.izx b)) = some [0x81, b]
        ∧ encode (.sta (.izy b)) = some [0x91, b]
        ∧ encode (.stx (.zrp b)) = some [0x86, b] ∧ encode (.stx (.zpy b)) = some [0x96, b]
        ∧ encode (.stx (.abs w)) = some [0x8E, lo8 w, hi8 w]
        ∧ encode (.sty (.zrp b)) = some [0x84, b] ∧ encode (.sty (.zpx b)) = some [0x94, b]
        ∧ encode (.sty (.abs w)) = some [0x8C, lo8 w, hi8 w]

/-- TAX, TAY, TXA, TYA, TSX complete with Z and N of the value moved, TXS with no flag (R136 to R141; that TXS writes no flag is the spec's general
knowledge, G4); their bytes (G3). -/
def Obligations.TransfersComplete : Prop :=
  (∀ s : State,
    let p := fun r : Byte => flagsZN s.cpu.p r
    let pc := s.cpu.pc + 1
    exec .tax s = .next { s with cpu := { s.cpu with x := s.cpu.a, p := p s.cpu.a, pc := pc } }
      ∧ exec .tay s = .next { s with cpu := { s.cpu with y := s.cpu.a, p := p s.cpu.a, pc := pc } }
      ∧ exec .txa s = .next { s with cpu := { s.cpu with a := s.cpu.x, p := p s.cpu.x, pc := pc } }
      ∧ exec .tya s = .next { s with cpu := { s.cpu with a := s.cpu.y, p := p s.cpu.y, pc := pc } }
      ∧ exec .tsx s = .next { s with cpu := { s.cpu with x := s.cpu.sp, p := p s.cpu.sp, pc := pc } }
      ∧ exec .txs s = .next { s with cpu := { s.cpu with sp := s.cpu.x, pc := pc } })
    ∧ encode .tax = some [0xAA] ∧ encode .tay = some [0xA8] ∧ encode .txa = some [0x8A] ∧ encode .tya = some [0x98]
    ∧ encode .tsx = some [0xBA] ∧ encode .txs = some [0x9A]

/-- ADC completes in every form with A' = (A + M + C) mod 256, V the signed overflow, and C by the parameter of D1: the sum exceeds 255, or two of the three
bits are 1 (R145, R146, R150); its bytes (G3). -/
def Obligations.AdcCompletes : Prop :=
  (∀ (src : Source) (s : State),
    let r := readSource src s
    let a := s.cpu.a
    let m := r.1
    let sum := a.toNat + m.toNat + s.cpu.p.c.toNat
    let signed := a.toInt + m.toInt + s.cpu.p.c.toNat
    let ones := a.toNat / 128 + m.toNat / 128 + s.cpu.p.c.toNat
    exec (.adc src) s = .next { r.2 with cpu := { s.cpu with
      a := BitVec.ofNat 8 sum
      p := { flagsZN s.cpu.p (BitVec.ofNat 8 sum) with
        c := match s.params.adcCarryRule with
          | .sum9 => decide (255 < sum)
          | .majority => decide (2 ≤ ones)
        v := decide (signed < -128 ∨ 127 < signed) }
      pc := nextPc s (.adc src) } })
    ∧ AccumulatorEncodings .adc 0x69 0x65 0x75 0x6D 0x7D 0x79 0x61 0x71

/-- SBC completes in every form with A' = (A - M) mod 256 whatever the carry was, V the signed overflow, and C by the parameter of D1: A ≥ M, or bit 7 of A set or
bit 7 of M clear (R146, R151; D2); its bytes (G3). -/
def Obligations.SbcCompletes : Prop :=
  (∀ (src : Source) (s : State),
    let r := readSource src s
    let a := s.cpu.a
    let m := r.1
    let signed := a.toInt - m.toInt
    let d := BitVec.ofNat 8 (a.toNat + 256 - m.toNat)
    exec (.sbc src) s = .next { r.2 with cpu := { s.cpu with
      a := d
      p := { flagsZN s.cpu.p d with
        c := match s.params.adcCarryRule with
          | .sum9 => decide (m.toNat ≤ a.toNat)
          | .majority => a.getLsbD 7 || !m.getLsbD 7
        v := decide (signed < -128 ∨ 127 < signed) }
      pc := nextPc s (.sbc src) } })
    ∧ AccumulatorEncodings .sbc 0xE9 0xE5 0xF5 0xED 0xFD 0xF9 0xE1 0xF1

/-- AND, ORA, EOR complete in every form with A combined with M and Z, N of the result (R152, R153, R154; G4); their bytes
(G3). -/
def Obligations.LogicCompletes : Prop :=
  (∀ (src : Source) (s : State),
    let r := readSource src s
    let done := fun (v : Byte) (i : Instr) =>
      { r.2 with cpu := { s.cpu with a := v, p := flagsZN s.cpu.p v, pc := nextPc s i } }
    exec (.and src) s = .next (done (s.cpu.a &&& r.1) (.and src))
      ∧ exec (.ora src) s = .next (done (s.cpu.a ||| r.1) (.ora src))
      ∧ exec (.eor src) s = .next (done (s.cpu.a ^^^ r.1) (.eor src)))
    ∧ AccumulatorEncodings .and 0x29 0x25 0x35 0x2D 0x3D 0x39 0x21 0x31
    ∧ AccumulatorEncodings .ora 0x09 0x05 0x15 0x0D 0x1D 0x19 0x01 0x11
    ∧ AccumulatorEncodings .eor 0x49 0x45 0x55 0x4D 0x5D 0x59 0x41 0x51

/-- BIT completes in every form with Z from A AND M, N and V from bits 7 and 6 of M, A unchanged (R155, which the spec gives as general knowledge, G4); its bytes
(G3). -/
def Obligations.BitTestCompletes : Prop :=
  (∀ (src : MemMode) (s : State),
    let r := cpuRead (effectiveAddress src s) s
    exec (.bit src) s = .next { r.2 with cpu := { s.cpu with
      p := { s.cpu.p with
        z := decide (s.cpu.a &&& r.1 = 0), n := decide (128 ≤ r.1.toNat), v := decide (64 ≤ r.1.toNat % 128) }
      pc := nextPc s (.bit src) } })
    ∧ ∀ (b : Byte) (w : Word),
      encode (.bit (.zrp b)) = some [0x24, b] ∧ encode (.bit (.abs w)) = some [0x2C, lo8 w, hi8 w]

/-- CMP, CPX, CPY complete in every form: C is register ≥ M unsigned, Z is equality, N bit 7 of the difference; no register changes (R147, R156, R157,
R158); their bytes (G3). -/
def Obligations.ComparesComplete : Prop :=
  (∀ (src : Source) (s : State),
    let r := readSource src s
    let done := fun (reg : Byte) (i : Instr) =>
      { r.2 with cpu := { s.cpu with
          p := { s.cpu.p with
            c := decide (r.1.toNat ≤ reg.toNat)
            z := decide (reg = r.1)
            n := (BitVec.ofNat 8 (reg.toNat + 256 - r.1.toNat)).getLsbD 7 }
          pc := nextPc s i } }
    exec (.cmp src) s = .next (done s.cpu.a (.cmp src))
      ∧ exec (.cpx src) s = .next (done s.cpu.x (.cpx src))
      ∧ exec (.cpy src) s = .next (done s.cpu.y (.cpy src)))
    ∧ AccumulatorEncodings .cmp 0xC9 0xC5 0xD5 0xCD 0xDD 0xD9 0xC1 0xD1
    ∧ CompareEncodings .cpx 0xE0 0xE4 0xEC ∧ CompareEncodings .cpy 0xC0 0xC4 0xCC

/-- INC and DEC complete in every form: one bus read and one bus write of ea (D8), Z and N of the result, C and V unchanged (R159, R160; G4);
their bytes (G3). -/
def Obligations.IncDecMemoryComplete : Prop :=
  (∀ (dst : MemMode) (s : State),
    let ea := effectiveAddress dst s
    let r := cpuRead ea s
    let done := fun (v : Byte) (i : Instr) =>
      { cpuWrite ea v r.2 with cpu := { (cpuWrite ea v r.2).cpu with p := flagsZN s.cpu.p v, pc := nextPc s i } }
    exec (.inc dst) s = .next (done (BitVec.ofNat 8 (r.1.toNat + 1)) (.inc dst))
      ∧ exec (.dec dst) s = .next (done (BitVec.ofNat 8 (r.1.toNat + 255)) (.dec dst)))
    ∧ ModifyEncodings .inc 0xE6 0xF6 0xEE 0xFE ∧ ModifyEncodings .dec 0xC6 0xD6 0xCE 0xDE

/-- INX, INY, DEX, DEY complete with the register moved by one mod 256, Z and N of it (R161 to R164; G4); their bytes (G3). -/
def Obligations.IncDecIndexComplete : Prop :=
  (∀ s : State,
    let up := fun v : Byte => BitVec.ofNat 8 (v.toNat + 1)
    let down := fun v : Byte => BitVec.ofNat 8 (v.toNat + 255)
    let p := fun r : Byte => flagsZN s.cpu.p r
    let pc := s.cpu.pc + 1
    exec .inx s = .next { s with cpu := { s.cpu with x := up s.cpu.x, p := p (up s.cpu.x), pc := pc } }
      ∧ exec .iny s = .next { s with cpu := { s.cpu with y := up s.cpu.y, p := p (up s.cpu.y), pc := pc } }
      ∧ exec .dex s = .next { s with cpu := { s.cpu with x := down s.cpu.x, p := p (down s.cpu.x), pc := pc } }
      ∧ exec .dey s = .next { s with cpu := { s.cpu with y := down s.cpu.y, p := p (down s.cpu.y), pc := pc } })
    ∧ encode .inx = some [0xE8] ∧ encode .iny = some [0xC8] ∧ encode .dex = some [0xCA] ∧ encode .dey = some [0x88]

/-- ASL, LSR, ROL, ROR complete on A and on memory: the result as arithmetic, C the bit shifted out, the old C rotated in, Z and N of the result (R180 to
R183); their bytes (G3). -/
def Obligations.ShiftsComplete : Prop :=
  ShiftCompletes .asl (fun _ m => BitVec.ofNat 8 (2 * m.toNat)) (fun m => m.getLsbD 7)
    ∧ ShiftCompletes .lsr (fun _ m => BitVec.ofNat 8 (m.toNat / 2)) (fun m => m.getLsbD 0)
    ∧ ShiftCompletes .rol (fun c m => BitVec.ofNat 8 (2 * m.toNat + c.toNat)) (fun m => m.getLsbD 7)
    ∧ ShiftCompletes .ror (fun c m => BitVec.ofNat 8 (m.toNat / 2 + 128 * c.toNat)) (fun m => m.getLsbD 0)
    ∧ encode (.asl .acc) = some [0x0A] ∧ ModifyEncodings (fun m => .asl (.mem m)) 0x06 0x16 0x0E 0x1E
    ∧ encode (.lsr .acc) = some [0x4A] ∧ ModifyEncodings (fun m => .lsr (.mem m)) 0x46 0x56 0x4E 0x5E
    ∧ encode (.rol .acc) = some [0x2A] ∧ ModifyEncodings (fun m => .rol (.mem m)) 0x26 0x36 0x2E 0x3E
    ∧ encode (.ror .acc) = some [0x6A] ∧ ModifyEncodings (fun m => .ror (.mem m)) 0x66 0x76 0x6E 0x7E

/-- JMP completes in both forms with PC = ea, the pointer of IND read low then high with no page wrap (R100, R190; D6 for the eager read, D32); its
bytes (G3). -/
def Obligations.JumpCompletes : Prop :=
  ∀ (w : Word) (s : State),
    let eager := fun (ea : Word) (u : State) => if s.params.eagerOperandRead then (cpuRead ea u).2 else u
    let lo := cpuRead w s
    let hi := cpuRead (w + 1) lo.2
    let ea := word hi.1 lo.1
    (exec (.jmp (.abs w)) s = .next { eager w s with cpu := { s.cpu with pc := w } }
      ∧ exec (.jmp (.ind w)) s = .next { eager ea hi.2 with cpu := { s.cpu with pc := ea } })
      ∧ encode (.jmp (.abs w)) = some [0x4C, lo8 w, hi8 w] ∧ encode (.jmp (.ind w)) = some [0x6C, lo8 w, hi8 w]

/-- JSR completes with the address of its own last byte pushed, high byte first, and PC = ea; RTS with the popped address plus one (R191, R192; D6 for the eager
read); their bytes (G3). -/
def Obligations.SubroutineCallsComplete : Prop :=
  (∀ (w : Word) (s : State),
    let u := if s.params.eagerOperandRead then (cpuRead w s).2 else s
    let t := s.cpu.pc.toNat + 2
    exec (.jsr w) s = .next { u with
      ram := (s.ram.write (0x100 + s.cpu.sp.toNat) (BitVec.ofNat 8 (t / 256))).write (0x100 + (s.cpu.sp - 1).toNat) (BitVec.ofNat 8 t)
      cpu := { s.cpu with sp := s.cpu.sp - 2, pc := w } }
      ∧ encode (.jsr w) = some [0x20, lo8 w, hi8 w])
    ∧ (∀ s : State,
      let lo := s.ram.read (0x100 + (s.cpu.sp + 1).toNat)
      let hi := s.ram.read (0x100 + (s.cpu.sp + 2).toNat)
      exec .rts s = .next { s with cpu := { s.cpu with sp := s.cpu.sp + 2, pc := word hi lo + 1 } })
    ∧ encode .rts = some [0x60]

/-- RTS after JSR resumes after the JSR with SP restored, wherever the subroutine's PC is (R191, R192). -/
def Obligations.ReturnFollowsCall : Prop :=
  ∀ (w q : Word) (s t : State), s.ram.wf = true → exec (.jsr w) s = .next t →
    exec .rts { t with cpu := { t.cpu with pc := q } } = .next { t with cpu := { t.cpu with sp := s.cpu.sp, pc := s.cpu.pc + 3 } }

/-- The eight branches complete, taken on their condition, to (f + 2 + sext_16(b)) mod 2^16, and to f + 2 otherwise, changing nothing else (R193 to R201, which
the spec gives as general knowledge, G5); their bytes (G3). -/
def Obligations.BranchesComplete : Prop :=
  BranchCompletes .bpl (fun p => !p.n) ∧ BranchCompletes .bmi (fun p => p.n)
    ∧ BranchCompletes .bvc (fun p => !p.v) ∧ BranchCompletes .bvs (fun p => p.v)
    ∧ BranchCompletes .bcc (fun p => !p.c) ∧ BranchCompletes .bcs (fun p => p.c)
    ∧ BranchCompletes .bne (fun p => !p.z) ∧ BranchCompletes .beq (fun p => p.z)
    ∧ ∀ b : Byte,
      encode (.bpl b) = some [0x10, b] ∧ encode (.bmi b) = some [0x30, b] ∧ encode (.bvc b) = some [0x50, b]
        ∧ encode (.bvs b) = some [0x70, b] ∧ encode (.bcc b) = some [0x90, b] ∧ encode (.bcs b) = some [0xB0, b]
        ∧ encode (.bne b) = some [0xD0, b] ∧ encode (.beq b) = some [0xF0, b]

/-- PHA, PLA, PHP, PLP complete: one stack byte moves, PLA sets Z and N, PLP loads all six flags (R210 to R213; bits 3 and 5 by D15, PLA's flags by G4);
their bytes (G3). -/
def Obligations.StackInstructionsComplete : Prop :=
  (∀ s : State,
    let top := 0x100 + s.cpu.sp.toNat
    let pulled := s.ram.read (0x100 + (s.cpu.sp + 1).toNat)
    let pc := s.cpu.pc + 1
    exec .pha s = .next { s with ram := s.ram.write top s.cpu.a, cpu := { s.cpu with sp := s.cpu.sp - 1, pc := pc } }
      ∧ exec .pla s = .next
          { s with cpu := { s.cpu with a := pulled, p := flagsZN s.cpu.p pulled, sp := s.cpu.sp + 1, pc := pc } }
      ∧ exec .php s = .next { s with ram := s.ram.write top s.cpu.p.serialize, cpu := { s.cpu with sp := s.cpu.sp - 1, pc := pc } }
      ∧ exec .plp s = .next { s with cpu := { s.cpu with
          p := { c := pulled.getLsbD 0, z := pulled.getLsbD 1, i := pulled.getLsbD 2, b := pulled.getLsbD 4
                 v := pulled.getLsbD 6, n := pulled.getLsbD 7 }
          sp := s.cpu.sp + 1, pc := pc } })
    ∧ encode .pha = some [0x48] ∧ encode .pla = some [0x68] ∧ encode .php = some [0x08] ∧ encode .plp = some [0x28]

/-- CLC, SEC, CLI, SEI, CLV complete with one flag written (R214 to R218, given as general knowledge, G4); their bytes (G3). -/
def Obligations.FlagInstructionsComplete : Prop :=
  (∀ s : State,
    let done := fun p : Status => Host.Outcome.next (φ := Fault) (ρ := Refusal)
      { s with cpu := { s.cpu with p := p, pc := s.cpu.pc + 1 } }
    exec .clc s = done { s.cpu.p with c := false } ∧ exec .sec s = done { s.cpu.p with c := true }
      ∧ exec .cli s = done { s.cpu.p with i := false } ∧ exec .sei s = done { s.cpu.p with i := true }
      ∧ exec .clv s = done { s.cpu.p with v := false })
    ∧ encode .clc = some [0x18] ∧ encode .sec = some [0x38] ∧ encode .cli = some [0x58] ∧ encode .sei = some [0x78]
    ∧ encode .clv = some [0xB8]

/-- NOP, SED, CLD complete with no change but PC = f + 1 (R219, which is G4, R221, R222); their bytes (G3). -/
def Obligations.NoOpsComplete : Prop :=
  (∀ s : State,
    let done := Host.Outcome.next (φ := Fault) (ρ := Refusal)
      { s with cpu := { s.cpu with pc := BitVec.ofNat 16 (s.cpu.pc.toNat + 1) } }
    exec .nop s = done ∧ exec .sed s = done ∧ exec .cld s = done)
    ∧ encode .nop = some [0xEA] ∧ encode .sed = some [0xF8] ∧ encode .cld = some [0xD8]

/-- BRK completes by entering its handler: three pushes with the return address f + `BRK_PUSH_OFFSET` and B = 1 in the status byte, PC from $FFFE, B and I set
(R220, R262; D9, D10); its byte (G3). -/
def Obligations.BrkCompletes : Prop :=
  (∀ s : State,
    let ret := s.cpu.pc + match s.params.brkPushOffset with | .one => 1 | .two => 2
    let p := { s.cpu.p with b := true }
    exec .brk s = .next { s with
      ram := ((s.ram.write (0x100 + s.cpu.sp.toNat) (hi8 ret)).write (0x100 + (s.cpu.sp - 1).toNat) (lo8 ret)).write
        (0x100 + (s.cpu.sp - 2).toNat) p.serialize
      cpu := { s.cpu with sp := s.cpu.sp - 3, p := { p with i := true }, pc := wordAt s 0xFFFE } })
    ∧ encode .brk = some [0x00]

/-- RTI completes with the six flags from the first byte popped and PC from the next two, low then high, without increment (R223); its byte
(G3). -/
def Obligations.RtiCompletes : Prop :=
  (∀ s : State,
    let f := s.ram.read (0x100 + (s.cpu.sp + 1).toNat)
    let lo := s.ram.read (0x100 + (s.cpu.sp + 2).toNat)
    let hi := s.ram.read (0x100 + (s.cpu.sp + 3).toNat)
    exec .rti s = .next { s with cpu := { s.cpu with
      p := { c := f.getLsbD 0, z := f.getLsbD 1, i := f.getLsbD 2, b := f.getLsbD 4, v := f.getLsbD 6, n := f.getLsbD 7 }
      sp := s.cpu.sp + 3
      pc := word hi lo } })
    ∧ encode .rti = some [0x40]

/-- RTI undoes the entry (R263): after BRK it resumes at f + `BRK_PUSH_OFFSET`, after an NMI at the instruction that had not started, with SP, A, X, Y and the
flags as before but for B, which both entries set before pushing (D9, D10, D11). -/
def Obligations.ReturnUndoesEntry : Prop :=
  ∀ s : State, s.ram.wf = true →
    (∀ t, exec .brk s = .next t → exec .rti t = .next { t with cpu := { s.cpu with
        pc := s.cpu.pc + brkOffset s.params.brkPushOffset, p := { s.cpu.p with b := true } } })
      ∧ exec .rti (nmiEntry s) = .next { nmiEntry s with cpu := { s.cpu with
        p := { s.cpu.p with b := s.params.nmiPushesBreak }, nmiPending := false } }

/-- Every unofficial instruction completes: the unofficial NOP, SLO, RLA, SRE, RRA, SAX, LAX, DCP, ISC, ANC, ALR, ARR, XAA, AXS, AHX, TAS, SHY, SHX, LAS, USBC and
KIL skip their own bytes and change nothing else, whatever `EAGER_OPERAND_READ` is, unless their byte is in `HALT_OPCODES`: then the core halts after the opcode
fetch (R240, R241; D3, D4, D5; log 7). Their bytes are the starred cells of R104 (R242; G3). -/
def Obligations.UnofficialOpcodesComplete : Prop :=
  (∀ (i : Instr) (s : State), i.official = false → i.wf = true →
    ∃ op, i.opcode = some op
      ∧ (op ∉ s.params.haltOpcodes → exec i s = .next { s with cpu := { s.cpu with pc := nextPc s i } })
      ∧ (op ∈ s.params.haltOpcodes → exec i s = .next { s with cpu := { s.cpu with pc := s.cpu.pc + 1, halted := true } }))
    ∧ UnofficialEncodings

/-! ## Instructions: what each leaves alone -/

/-- The frame of the instructions that read an operand and store nothing: LDA, LDX, LDY, ADC, SBC, AND, ORA, EOR, CMP, CPX, CPY, BIT. Memory and every register but
the destination are unchanged, every flag but those the rule names; the read may change the PPU only if its address names register 2 or 7 (R21, R23, R24, R27,
R28, R57, R288, R289, R294). -/
def Obligations.ReadingInstructionsFrame : Prop :=
  ∀ (src : Source) (m : MemMode) (s t : State),
    let onlyZN := t.cpu.p = { s.cpu.p with z := t.cpu.p.z, n := t.cpu.p.n }
    let onlyCZN := t.cpu.p = { s.cpu.p with c := t.cpu.p.c, z := t.cpu.p.z, n := t.cpu.p.n }
    let onlyCVZN := t.cpu.p = { s.cpu.p with c := t.cpu.p.c, v := t.cpu.p.v, z := t.cpu.p.z, n := t.cpu.p.n }
    let onlyVZN := t.cpu.p = { s.cpu.p with v := t.cpu.p.v, z := t.cpu.p.z, n := t.cpu.p.n }
    let intoA := t.cpu = { s.cpu with a := t.cpu.a, p := t.cpu.p, pc := t.cpu.pc }
    let intoX := t.cpu = { s.cpu with x := t.cpu.x, p := t.cpu.p, pc := t.cpu.pc }
    let intoY := t.cpu = { s.cpu with y := t.cpu.y, p := t.cpu.p, pc := t.cpu.pc }
    let intoNone := t.cpu = { s.cpu with p := t.cpu.p, pc := t.cpu.pc }
    let read := ReadFrame (sourceReads src s) s t
    (exec (.lda src) s = .next t → intoA ∧ onlyZN ∧ read) ∧ (exec (.ldx src) s = .next t → intoX ∧ onlyZN ∧ read)
      ∧ (exec (.ldy src) s = .next t → intoY ∧ onlyZN ∧ read)
      ∧ (exec (.adc src) s = .next t → intoA ∧ onlyCVZN ∧ read) ∧ (exec (.sbc src) s = .next t → intoA ∧ onlyCVZN ∧ read)
      ∧ (exec (.and src) s = .next t → intoA ∧ onlyZN ∧ read) ∧ (exec (.ora src) s = .next t → intoA ∧ onlyZN ∧ read)
      ∧ (exec (.eor src) s = .next t → intoA ∧ onlyZN ∧ read)
      ∧ (exec (.cmp src) s = .next t → intoNone ∧ onlyCZN ∧ read) ∧ (exec (.cpx src) s = .next t → intoNone ∧ onlyCZN ∧ read)
      ∧ (exec (.cpy src) s = .next t → intoNone ∧ onlyCZN ∧ read)
      ∧ (exec (.bit m) s = .next t → intoNone ∧ onlyVZN ∧ ReadFrame [effectiveAddress m s] s t)

/-- The frame of the instructions that store one byte at their effective address: STA, STX, STY, INC, DEC and the memory forms of ASL, LSR, ROL, ROR. No register
changes but PC; the flags change as the rule says; every byte outside the one stored reads as before; a store into the aperture is a PPU register write of the byte
stored, and leaves the PPU and the NMI slot as that write does (R52, R53, R56, R57, R290). The byte goes to the effective address in the state the instruction starts
in; the store follows the instruction's own read, the eager one of a store instruction (R103; D6) or the one read of a read-modify-write (R66; D8). -/
def Obligations.StoringInstructionsFrame : Prop :=
  ∀ (m : MemMode) (s t : State), s.Sound →
    let ea := effectiveAddress m s
    let u := if s.params.eagerOperandRead then (cpuRead ea s).2 else s
    let r := cpuRead ea s
    let onlyPc := t.cpu = { s.cpu with pc := t.cpu.pc, nmiPending := t.cpu.nmiPending }
    let onlyFlags := t.cpu = { s.cpu with p := t.cpu.p, pc := t.cpu.pc, nmiPending := t.cpu.nmiPending }
    let onlyZN := t.cpu.p = { s.cpu.p with z := t.cpu.p.z, n := t.cpu.p.n }
    let onlyCZN := t.cpu.p = { s.cpu.p with c := t.cpu.p.c, z := t.cpu.p.z, n := t.cpu.p.n }
    let stored := fun v : Byte => onlyPc ∧ StoreFrame ea v u s t
    let moved := fun v : Nat => onlyFlags ∧ onlyZN ∧ StoreFrame ea (BitVec.ofNat 8 v) r.2 s t
    let shifted := fun v : Nat => onlyFlags ∧ onlyCZN ∧ StoreFrame ea (BitVec.ofNat 8 v) r.2 s t
    let carry := s.cpu.p.c.toNat
    (exec (.sta m) s = .next t → stored s.cpu.a) ∧ (exec (.stx m) s = .next t → stored s.cpu.x)
      ∧ (exec (.sty m) s = .next t → stored s.cpu.y)
      ∧ (exec (.inc m) s = .next t → moved (r.1.toNat + 1)) ∧ (exec (.dec m) s = .next t → moved (r.1.toNat + 255))
      ∧ (exec (.asl (.mem m)) s = .next t → shifted (2 * r.1.toNat))
      ∧ (exec (.lsr (.mem m)) s = .next t → shifted (r.1.toNat / 2))
      ∧ (exec (.rol (.mem m)) s = .next t → shifted (2 * r.1.toNat + carry))
      ∧ (exec (.ror (.mem m)) s = .next t → shifted (r.1.toNat / 2 + 128 * carry))

/-- The frame of the instructions that touch no memory: the transfers, INX, INY, DEX, DEY, the accumulator shifts, the flag instructions, NOP, SED, CLD and the
branches change only the CPU, and of it only the register and flags named (R21, R28). -/
def Obligations.RegisterInstructionsFrame : Prop :=
  ∀ (b : Byte) (s t : State),
    let cpuOnly := t = { s with cpu := t.cpu } ∧ SameBus s t ∧ SameVideo s t
    let onlyZN := t.cpu.p = { s.cpu.p with z := t.cpu.p.z, n := t.cpu.p.n }
    let onlyCZN := t.cpu.p = { s.cpu.p with c := t.cpu.p.c, z := t.cpu.p.z, n := t.cpu.p.n }
    let intoA := cpuOnly ∧ t.cpu = { s.cpu with a := t.cpu.a, p := t.cpu.p, pc := t.cpu.pc }
    let intoX := cpuOnly ∧ t.cpu = { s.cpu with x := t.cpu.x, p := t.cpu.p, pc := t.cpu.pc }
    let intoY := cpuOnly ∧ t.cpu = { s.cpu with y := t.cpu.y, p := t.cpu.p, pc := t.cpu.pc }
    let intoSP := cpuOnly ∧ t.cpu = { s.cpu with sp := t.cpu.sp, pc := t.cpu.pc }
    let intoP := cpuOnly ∧ t.cpu = { s.cpu with p := t.cpu.p, pc := t.cpu.pc }
    let onlyPc := cpuOnly ∧ t.cpu = { s.cpu with pc := t.cpu.pc }
    (∀ i ∈ [Instr.txa, .tya], exec i s = .next t → intoA ∧ onlyZN)
      ∧ (∀ i ∈ [Instr.tax, .tsx, .inx, .dex], exec i s = .next t → intoX ∧ onlyZN)
      ∧ (∀ i ∈ [Instr.tay, .iny, .dey], exec i s = .next t → intoY ∧ onlyZN)
      ∧ (exec .txs s = .next t → intoSP)
      ∧ (∀ i ∈ [Instr.asl .acc, .lsr .acc, .rol .acc, .ror .acc], exec i s = .next t → intoA ∧ onlyCZN)
      ∧ (∀ i ∈ [Instr.clc, .sec], exec i s = .next t → intoP ∧ t.cpu.p = { s.cpu.p with c := t.cpu.p.c })
      ∧ (∀ i ∈ [Instr.cli, .sei], exec i s = .next t → intoP ∧ t.cpu.p = { s.cpu.p with i := t.cpu.p.i })
      ∧ (exec .clv s = .next t → intoP ∧ t.cpu.p = { s.cpu.p with v := t.cpu.p.v })
      ∧ (∀ i ∈ [Instr.nop, .sed, .cld, .bpl b, .bmi b, .bvc b, .bvs b, .bcc b, .bcs b, .bne b, .beq b],
          exec i s = .next t → onlyPc)

/-- The frame of the instructions that use the stack or jump: PHA, PHP, JSR and BRK store only the stack bytes at $0100 + SP and below that they push, PLA, PLP, RTS and RTI
store nothing, JMP neither stores nor moves SP; A, X and Y change only for PLA, and no flag but those the rule names (R21, R28, R60, R61, R262). The PPU stays, but
for what JMP's pointer reads (R100) and the eager reads of JMP and JSR (R103; D6) change of it when one names register 2 or 7 (R57). -/
def Obligations.StackInstructionsFrame : Prop :=
  ∀ (w : Word) (target : JumpTarget) (s t : State), s.ram.wf = true →
    let stored := fun n : Nat => SameSession s t ∧ SameVideo s t
      ∧ ∀ a : Word, ¬InAperture a → (∀ k < n, a.toNat < 0x2000 → ramIndex a ≠ stackIndex (s.cpu.sp - BitVec.ofNat 8 k)) →
          byteAt t a = byteAt s a
    let onlyStack := t.cpu = { s.cpu with sp := t.cpu.sp, pc := t.cpu.pc }
    let withFlags := t.cpu = { s.cpu with sp := t.cpu.sp, p := t.cpu.p, pc := t.cpu.pc }
    (exec .pha s = .next t → stored 1 ∧ onlyStack ∧ t.ppu = s.ppu) ∧ (exec .php s = .next t → stored 1 ∧ onlyStack ∧ t.ppu = s.ppu)
      ∧ (exec .pla s = .next t → stored 0 ∧ t.ppu = s.ppu
          ∧ t.cpu = { s.cpu with a := t.cpu.a, sp := t.cpu.sp, pc := t.cpu.pc, p := { s.cpu.p with z := t.cpu.p.z, n := t.cpu.p.n } })
      ∧ (exec .plp s = .next t → stored 0 ∧ withFlags ∧ t.ppu = s.ppu)
      ∧ (exec (.jsr w) s = .next t → stored 2 ∧ onlyStack ∧ PpuReadFrame (eagerReads w s) s t)
      ∧ (exec .rts s = .next t → stored 0 ∧ onlyStack ∧ t.ppu = s.ppu)
      ∧ (exec .brk s = .next t → stored 3 ∧ withFlags ∧ t.ppu = s.ppu
          ∧ t.cpu.p = { s.cpu.p with b := t.cpu.p.b, i := t.cpu.p.i })
      ∧ (exec .rti s = .next t → stored 0 ∧ withFlags ∧ t.ppu = s.ppu)
      ∧ (exec (.jmp target) s = .next t → stored 0 ∧ t.cpu = { s.cpu with pc := t.cpu.pc } ∧ PpuReadFrame (jumpReads target s) s t)
end

