-- ==== Sys2Proof/Laws/Memory.lean ====
section
/-!
SUPPORT. Reading after writing, and that every operation keeps the canonical form and the size of a memory.
-/

namespace Sys2Proof.Machine

/-- The canonical form of a memory with a first cell: it lists no 0 and every later index is above its own. -/
theorem Memory.wf_cons {a : Nat} {v : Byte} {m : Memory} :
    Memory.wf ((a, v) :: m) = true ↔ v ≠ 0#8 ∧ (∀ c ∈ m, a < c.1) ∧ m.wf = true := by
  simp [Memory.wf, and_assoc]

/-- The size of a memory, index by index. -/
theorem Memory.below_iff {n : Nat} {m : Memory} : m.below n = true ↔ ∀ c ∈ m, c.1 < n := by
  simp [Memory.below]

/-- Every cell of a written memory is the written one or an old one. -/
theorem Memory.mem_write {m : Memory} {k : Nat} {v : Byte} {c : Host.Cell} (h : c ∈ Memory.write m k v) :
    c = (k, v) ∨ c ∈ m := by
  induction m with
  | nil =>
    simp only [Memory.write] at h
    split at h <;> simp_all
  | cons d m ih =>
    simp only [Memory.write] at h
    split at h
    · split at h <;> simp_all
    · split at h
      · split at h <;> grind
      · rcases List.mem_cons.mp h with rfl | h
        · exact .inr List.mem_cons_self
        · exact (ih h).imp_right (List.mem_cons_of_mem _)

/-- A write keeps the canonical form. -/
theorem Memory.write_wf {m : Memory} (k : Nat) (v : Byte) (h : m.wf = true) : (Memory.write m k v).wf = true := by
  induction m with
  | nil =>
    simp only [Memory.write]
    split
    · rfl
    · next hv => exact Memory.wf_cons.mpr ⟨hv, by simp, rfl⟩
  | cons c m ih =>
    obtain ⟨b, x⟩ := c
    obtain ⟨hx, ha, hm⟩ := Memory.wf_cons.mp h
    simp only [Memory.write]
    split
    · next hkb =>
      split
      · exact h
      · next hv =>
        refine Memory.wf_cons.mpr ⟨hv, fun c hc => ?_, h⟩
        rcases List.mem_cons.mp hc with rfl | hc
        · exact hkb
        · exact Nat.lt_trans hkb (ha c hc)
    · split
      · next hk =>
        split
        · exact hm
        · next hv => exact Memory.wf_cons.mpr ⟨hv, hk ▸ ha, hm⟩
      · next hkb hk =>
        refine Memory.wf_cons.mpr ⟨hx, fun c hc => ?_, ih hm⟩
        rcases Memory.mem_write hc with rfl | hc
        · exact Nat.lt_of_le_of_ne (Nat.not_lt.mp hkb) (Ne.symm hk)
        · exact ha c hc

/-- A write inside the memory lists no index outside it. -/
theorem Memory.write_below {n : Nat} {m : Memory} {k : Nat} {v : Byte} (hk : k < n) (h : m.below n = true) :
    (Memory.write m k v).below n = true := by
  rw [Memory.below_iff] at h ⊢
  intro c hc
  rcases Memory.mem_write hc with rfl | hc
  · exact hk
  · exact h c hc

/-- An index below every listed one reads 0. -/
theorem Memory.read_of_above {m : Memory} {k : Nat} (h : ∀ c ∈ m, k < c.1) : m.read k = 0#8 := by
  induction m with
  | nil => rfl
  | cons c m ih =>
    have hc := h c List.mem_cons_self
    simp only [Memory.read, if_neg (Nat.ne_of_lt hc)]
    exact ih fun d hd => h d (List.mem_cons_of_mem _ hd)

/-- A read after a write to a canonical memory: the byte written at its own index, the old byte elsewhere. -/
theorem Memory.read_write {m : Memory} (h : m.wf = true) (k j : Nat) (v : Byte) :
    (Memory.write m k v).read j = if j = k then v else m.read j := by
  induction m with
  | nil => simp only [Memory.write]; split <;> simp_all [Memory.read]
  | cons c m ih =>
    obtain ⟨b, x⟩ := c
    obtain ⟨hx, ha, hm⟩ := Memory.wf_cons.mp h
    simp only [Memory.write]
    split
    · next hkb =>
      have h0 : Memory.read ((b, x) :: m) k = 0#8 := by
        refine Memory.read_of_above fun c hc => ?_
        rcases List.mem_cons.mp hc with rfl | hc
        · exact hkb
        · exact Nat.lt_trans hkb (ha c hc)
      split
      · next hv => split <;> simp_all
      · simp only [Memory.read]
    · split
      · next hk =>
        subst hk
        have h0 := Memory.read_of_above ha
        split <;> simp only [Memory.read] <;> split <;> simp_all
      · next hk =>
        simp only [Memory.read, ih hm]
        split
        · next hj => simp [hj, Ne.symm hk]
        · rfl

/-- Every index `ofBytes` lists is at least the base. -/
theorem Memory.base_le_of_mem_ofBytes {base : Nat} {bytes : List Byte} {c : Host.Cell}
    (h : c ∈ Memory.ofBytes base bytes) : base ≤ c.1 := by
  induction bytes generalizing base with
  | nil => simp [Memory.ofBytes] at h
  | cons v bytes ih =>
    simp only [Memory.ofBytes] at h
    split at h
    · exact Nat.le_of_succ_le (ih h)
    · rcases List.mem_cons.mp h with rfl | h
      · exact Nat.le_refl _
      · exact Nat.le_of_succ_le (ih h)

/-- An image is canonical. -/
theorem Memory.ofBytes_wf (base : Nat) (bytes : List Byte) : (Memory.ofBytes base bytes).wf = true := by
  induction bytes generalizing base with
  | nil => rfl
  | cons v bytes ih =>
    simp only [Memory.ofBytes]
    split
    · exact ih _
    · next hv => exact Memory.wf_cons.mpr ⟨hv, fun c hc => Memory.base_le_of_mem_ofBytes hc, ih _⟩

/-- An image lists no index beyond its last byte. -/
theorem Memory.ofBytes_below {n base : Nat} {bytes : List Byte} (h : base + bytes.length ≤ n) :
    (Memory.ofBytes base bytes).below n = true := by
  rw [Memory.below_iff]
  induction bytes generalizing base with
  | nil => simp [Memory.ofBytes]
  | cons v bytes ih =>
    simp only [List.length_cons] at h
    have hrest := ih (base := base + 1) (by omega)
    simp only [Memory.ofBytes]
    split
    · exact hrest
    · intro c hc
      rcases List.mem_cons.mp hc with rfl | hc
      · show base < n
        omega
      · exact hrest c hc

/-- An image reads as its bytes, and as 0 beyond them. -/
theorem Memory.read_ofBytes (base : Nat) (bytes : List Byte) (k : Nat) :
    (Memory.ofBytes base bytes).read (base + k) = bytes.getD k 0#8 := by
  induction bytes generalizing base k with
  | nil => simp [Memory.ofBytes, Memory.read]
  | cons v bytes ih =>
    simp only [Memory.ofBytes]
    cases k with
    | zero =>
      split
      · next hv =>
        rw [hv]
        exact Memory.read_of_above fun c hc => Memory.base_le_of_mem_ofBytes hc
      · simp [Memory.read]
    | succ k =>
      have h := ih (base + 1) k
      rw [Nat.add_assoc, Nat.add_comm 1 k] at h
      split
      · rw [h, List.getD_cons_succ]
      · rw [Memory.read, if_neg (by omega), h, List.getD_cons_succ]

end Sys2Proof.Machine
end

