-- ==== Sys2Proof/Laws/State.lean ====
section
/-!
SUPPORT. One lemma per field per update of State, true by rfl, so that no proof unfolds a record update.
-/

namespace Sys2Proof.Machine

@[simp] theorem State.setA_cart (s : State) (v : Byte) : (s.setA v).cart = s.cart := rfl
@[simp] theorem State.setA_params (s : State) (v : Byte) : (s.setA v).params = s.params := rfl
@[simp] theorem State.setA_cpu_a (s : State) (v : Byte) : (s.setA v).cpu.a = v := rfl
@[simp] theorem State.setA_cpu_x (s : State) (v : Byte) : (s.setA v).cpu.x = s.cpu.x := rfl
@[simp] theorem State.setA_cpu_y (s : State) (v : Byte) : (s.setA v).cpu.y = s.cpu.y := rfl
@[simp] theorem State.setA_cpu_sp (s : State) (v : Byte) : (s.setA v).cpu.sp = s.cpu.sp := rfl
@[simp] theorem State.setA_cpu_pc (s : State) (v : Byte) : (s.setA v).cpu.pc = s.cpu.pc := rfl
@[simp] theorem State.setA_cpu_p (s : State) (v : Byte) : (s.setA v).cpu.p = s.cpu.p := rfl
@[simp] theorem State.setA_cpu_halted (s : State) (v : Byte) : (s.setA v).cpu.halted = s.cpu.halted := rfl
@[simp] theorem State.setA_cpu_nmiPending (s : State) (v : Byte) : (s.setA v).cpu.nmiPending = s.cpu.nmiPending := rfl
@[simp] theorem State.setA_ppu (s : State) (v : Byte) : (s.setA v).ppu = s.ppu := rfl
@[simp] theorem State.setA_ram (s : State) (v : Byte) : (s.setA v).ram = s.ram := rfl
@[simp] theorem State.setA_ciram (s : State) (v : Byte) : (s.setA v).ciram = s.ciram := rfl
@[simp] theorem State.setA_palette (s : State) (v : Byte) : (s.setA v).palette = s.palette := rfl
@[simp] theorem State.setA_chrRam (s : State) (v : Byte) : (s.setA v).chrRam = s.chrRam := rfl
@[simp] theorem State.setA_schedule (s : State) (v : Byte) : (s.setA v).schedule = s.schedule := rfl
@[simp] theorem State.setA_ppuOwed (s : State) (v : Byte) : (s.setA v).ppuOwed = s.ppuOwed := rfl

@[simp] theorem State.setX_cart (s : State) (v : Byte) : (s.setX v).cart = s.cart := rfl
@[simp] theorem State.setX_params (s : State) (v : Byte) : (s.setX v).params = s.params := rfl
@[simp] theorem State.setX_cpu_a (s : State) (v : Byte) : (s.setX v).cpu.a = s.cpu.a := rfl
@[simp] theorem State.setX_cpu_x (s : State) (v : Byte) : (s.setX v).cpu.x = v := rfl
@[simp] theorem State.setX_cpu_y (s : State) (v : Byte) : (s.setX v).cpu.y = s.cpu.y := rfl
@[simp] theorem State.setX_cpu_sp (s : State) (v : Byte) : (s.setX v).cpu.sp = s.cpu.sp := rfl
@[simp] theorem State.setX_cpu_pc (s : State) (v : Byte) : (s.setX v).cpu.pc = s.cpu.pc := rfl
@[simp] theorem State.setX_cpu_p (s : State) (v : Byte) : (s.setX v).cpu.p = s.cpu.p := rfl
@[simp] theorem State.setX_cpu_halted (s : State) (v : Byte) : (s.setX v).cpu.halted = s.cpu.halted := rfl
@[simp] theorem State.setX_cpu_nmiPending (s : State) (v : Byte) : (s.setX v).cpu.nmiPending = s.cpu.nmiPending := rfl
@[simp] theorem State.setX_ppu (s : State) (v : Byte) : (s.setX v).ppu = s.ppu := rfl
@[simp] theorem State.setX_ram (s : State) (v : Byte) : (s.setX v).ram = s.ram := rfl
@[simp] theorem State.setX_ciram (s : State) (v : Byte) : (s.setX v).ciram = s.ciram := rfl
@[simp] theorem State.setX_palette (s : State) (v : Byte) : (s.setX v).palette = s.palette := rfl
@[simp] theorem State.setX_chrRam (s : State) (v : Byte) : (s.setX v).chrRam = s.chrRam := rfl
@[simp] theorem State.setX_schedule (s : State) (v : Byte) : (s.setX v).schedule = s.schedule := rfl
@[simp] theorem State.setX_ppuOwed (s : State) (v : Byte) : (s.setX v).ppuOwed = s.ppuOwed := rfl

@[simp] theorem State.setY_cart (s : State) (v : Byte) : (s.setY v).cart = s.cart := rfl
@[simp] theorem State.setY_params (s : State) (v : Byte) : (s.setY v).params = s.params := rfl
@[simp] theorem State.setY_cpu_a (s : State) (v : Byte) : (s.setY v).cpu.a = s.cpu.a := rfl
@[simp] theorem State.setY_cpu_x (s : State) (v : Byte) : (s.setY v).cpu.x = s.cpu.x := rfl
@[simp] theorem State.setY_cpu_y (s : State) (v : Byte) : (s.setY v).cpu.y = v := rfl
@[simp] theorem State.setY_cpu_sp (s : State) (v : Byte) : (s.setY v).cpu.sp = s.cpu.sp := rfl
@[simp] theorem State.setY_cpu_pc (s : State) (v : Byte) : (s.setY v).cpu.pc = s.cpu.pc := rfl
@[simp] theorem State.setY_cpu_p (s : State) (v : Byte) : (s.setY v).cpu.p = s.cpu.p := rfl
@[simp] theorem State.setY_cpu_halted (s : State) (v : Byte) : (s.setY v).cpu.halted = s.cpu.halted := rfl
@[simp] theorem State.setY_cpu_nmiPending (s : State) (v : Byte) : (s.setY v).cpu.nmiPending = s.cpu.nmiPending := rfl
@[simp] theorem State.setY_ppu (s : State) (v : Byte) : (s.setY v).ppu = s.ppu := rfl
@[simp] theorem State.setY_ram (s : State) (v : Byte) : (s.setY v).ram = s.ram := rfl
@[simp] theorem State.setY_ciram (s : State) (v : Byte) : (s.setY v).ciram = s.ciram := rfl
@[simp] theorem State.setY_palette (s : State) (v : Byte) : (s.setY v).palette = s.palette := rfl
@[simp] theorem State.setY_chrRam (s : State) (v : Byte) : (s.setY v).chrRam = s.chrRam := rfl
@[simp] theorem State.setY_schedule (s : State) (v : Byte) : (s.setY v).schedule = s.schedule := rfl
@[simp] theorem State.setY_ppuOwed (s : State) (v : Byte) : (s.setY v).ppuOwed = s.ppuOwed := rfl

@[simp] theorem State.setSP_cart (s : State) (v : Byte) : (s.setSP v).cart = s.cart := rfl
@[simp] theorem State.setSP_params (s : State) (v : Byte) : (s.setSP v).params = s.params := rfl
@[simp] theorem State.setSP_cpu_a (s : State) (v : Byte) : (s.setSP v).cpu.a = s.cpu.a := rfl
@[simp] theorem State.setSP_cpu_x (s : State) (v : Byte) : (s.setSP v).cpu.x = s.cpu.x := rfl
@[simp] theorem State.setSP_cpu_y (s : State) (v : Byte) : (s.setSP v).cpu.y = s.cpu.y := rfl
@[simp] theorem State.setSP_cpu_sp (s : State) (v : Byte) : (s.setSP v).cpu.sp = v := rfl
@[simp] theorem State.setSP_cpu_pc (s : State) (v : Byte) : (s.setSP v).cpu.pc = s.cpu.pc := rfl
@[simp] theorem State.setSP_cpu_p (s : State) (v : Byte) : (s.setSP v).cpu.p = s.cpu.p := rfl
@[simp] theorem State.setSP_cpu_halted (s : State) (v : Byte) : (s.setSP v).cpu.halted = s.cpu.halted := rfl
@[simp] theorem State.setSP_cpu_nmiPending (s : State) (v : Byte) : (s.setSP v).cpu.nmiPending = s.cpu.nmiPending := rfl
@[simp] theorem State.setSP_ppu (s : State) (v : Byte) : (s.setSP v).ppu = s.ppu := rfl
@[simp] theorem State.setSP_ram (s : State) (v : Byte) : (s.setSP v).ram = s.ram := rfl
@[simp] theorem State.setSP_ciram (s : State) (v : Byte) : (s.setSP v).ciram = s.ciram := rfl
@[simp] theorem State.setSP_palette (s : State) (v : Byte) : (s.setSP v).palette = s.palette := rfl
@[simp] theorem State.setSP_chrRam (s : State) (v : Byte) : (s.setSP v).chrRam = s.chrRam := rfl
@[simp] theorem State.setSP_schedule (s : State) (v : Byte) : (s.setSP v).schedule = s.schedule := rfl
@[simp] theorem State.setSP_ppuOwed (s : State) (v : Byte) : (s.setSP v).ppuOwed = s.ppuOwed := rfl

@[simp] theorem State.setPC_cart (s : State) (v : Word) : (s.setPC v).cart = s.cart := rfl
@[simp] theorem State.setPC_params (s : State) (v : Word) : (s.setPC v).params = s.params := rfl
@[simp] theorem State.setPC_cpu_a (s : State) (v : Word) : (s.setPC v).cpu.a = s.cpu.a := rfl
@[simp] theorem State.setPC_cpu_x (s : State) (v : Word) : (s.setPC v).cpu.x = s.cpu.x := rfl
@[simp] theorem State.setPC_cpu_y (s : State) (v : Word) : (s.setPC v).cpu.y = s.cpu.y := rfl
@[simp] theorem State.setPC_cpu_sp (s : State) (v : Word) : (s.setPC v).cpu.sp = s.cpu.sp := rfl
@[simp] theorem State.setPC_cpu_pc (s : State) (v : Word) : (s.setPC v).cpu.pc = v := rfl
@[simp] theorem State.setPC_cpu_p (s : State) (v : Word) : (s.setPC v).cpu.p = s.cpu.p := rfl
@[simp] theorem State.setPC_cpu_halted (s : State) (v : Word) : (s.setPC v).cpu.halted = s.cpu.halted := rfl
@[simp] theorem State.setPC_cpu_nmiPending (s : State) (v : Word) : (s.setPC v).cpu.nmiPending = s.cpu.nmiPending := rfl
@[simp] theorem State.setPC_ppu (s : State) (v : Word) : (s.setPC v).ppu = s.ppu := rfl
@[simp] theorem State.setPC_ram (s : State) (v : Word) : (s.setPC v).ram = s.ram := rfl
@[simp] theorem State.setPC_ciram (s : State) (v : Word) : (s.setPC v).ciram = s.ciram := rfl
@[simp] theorem State.setPC_palette (s : State) (v : Word) : (s.setPC v).palette = s.palette := rfl
@[simp] theorem State.setPC_chrRam (s : State) (v : Word) : (s.setPC v).chrRam = s.chrRam := rfl
@[simp] theorem State.setPC_schedule (s : State) (v : Word) : (s.setPC v).schedule = s.schedule := rfl
@[simp] theorem State.setPC_ppuOwed (s : State) (v : Word) : (s.setPC v).ppuOwed = s.ppuOwed := rfl

@[simp] theorem State.setP_cart (s : State) (v : Status) : (s.setP v).cart = s.cart := rfl
@[simp] theorem State.setP_params (s : State) (v : Status) : (s.setP v).params = s.params := rfl
@[simp] theorem State.setP_cpu_a (s : State) (v : Status) : (s.setP v).cpu.a = s.cpu.a := rfl
@[simp] theorem State.setP_cpu_x (s : State) (v : Status) : (s.setP v).cpu.x = s.cpu.x := rfl
@[simp] theorem State.setP_cpu_y (s : State) (v : Status) : (s.setP v).cpu.y = s.cpu.y := rfl
@[simp] theorem State.setP_cpu_sp (s : State) (v : Status) : (s.setP v).cpu.sp = s.cpu.sp := rfl
@[simp] theorem State.setP_cpu_pc (s : State) (v : Status) : (s.setP v).cpu.pc = s.cpu.pc := rfl
@[simp] theorem State.setP_cpu_p (s : State) (v : Status) : (s.setP v).cpu.p = v := rfl
@[simp] theorem State.setP_cpu_halted (s : State) (v : Status) : (s.setP v).cpu.halted = s.cpu.halted := rfl
@[simp] theorem State.setP_cpu_nmiPending (s : State) (v : Status) : (s.setP v).cpu.nmiPending = s.cpu.nmiPending := rfl
@[simp] theorem State.setP_ppu (s : State) (v : Status) : (s.setP v).ppu = s.ppu := rfl
@[simp] theorem State.setP_ram (s : State) (v : Status) : (s.setP v).ram = s.ram := rfl
@[simp] theorem State.setP_ciram (s : State) (v : Status) : (s.setP v).ciram = s.ciram := rfl
@[simp] theorem State.setP_palette (s : State) (v : Status) : (s.setP v).palette = s.palette := rfl
@[simp] theorem State.setP_chrRam (s : State) (v : Status) : (s.setP v).chrRam = s.chrRam := rfl
@[simp] theorem State.setP_schedule (s : State) (v : Status) : (s.setP v).schedule = s.schedule := rfl
@[simp] theorem State.setP_ppuOwed (s : State) (v : Status) : (s.setP v).ppuOwed = s.ppuOwed := rfl

@[simp] theorem State.setNmiPending_cart (s : State) (v : Bool) : (s.setNmiPending v).cart = s.cart := rfl
@[simp] theorem State.setNmiPending_params (s : State) (v : Bool) : (s.setNmiPending v).params = s.params := rfl
@[simp] theorem State.setNmiPending_cpu_a (s : State) (v : Bool) : (s.setNmiPending v).cpu.a = s.cpu.a := rfl
@[simp] theorem State.setNmiPending_cpu_x (s : State) (v : Bool) : (s.setNmiPending v).cpu.x = s.cpu.x := rfl
@[simp] theorem State.setNmiPending_cpu_y (s : State) (v : Bool) : (s.setNmiPending v).cpu.y = s.cpu.y := rfl
@[simp] theorem State.setNmiPending_cpu_sp (s : State) (v : Bool) : (s.setNmiPending v).cpu.sp = s.cpu.sp := rfl
@[simp] theorem State.setNmiPending_cpu_pc (s : State) (v : Bool) : (s.setNmiPending v).cpu.pc = s.cpu.pc := rfl
@[simp] theorem State.setNmiPending_cpu_p (s : State) (v : Bool) : (s.setNmiPending v).cpu.p = s.cpu.p := rfl
@[simp] theorem State.setNmiPending_cpu_halted (s : State) (v : Bool) : (s.setNmiPending v).cpu.halted = s.cpu.halted := rfl
@[simp] theorem State.setNmiPending_cpu_nmiPending (s : State) (v : Bool) : (s.setNmiPending v).cpu.nmiPending = v := rfl
@[simp] theorem State.setNmiPending_ppu (s : State) (v : Bool) : (s.setNmiPending v).ppu = s.ppu := rfl
@[simp] theorem State.setNmiPending_ram (s : State) (v : Bool) : (s.setNmiPending v).ram = s.ram := rfl
@[simp] theorem State.setNmiPending_ciram (s : State) (v : Bool) : (s.setNmiPending v).ciram = s.ciram := rfl
@[simp] theorem State.setNmiPending_palette (s : State) (v : Bool) : (s.setNmiPending v).palette = s.palette := rfl
@[simp] theorem State.setNmiPending_chrRam (s : State) (v : Bool) : (s.setNmiPending v).chrRam = s.chrRam := rfl
@[simp] theorem State.setNmiPending_schedule (s : State) (v : Bool) : (s.setNmiPending v).schedule = s.schedule := rfl
@[simp] theorem State.setNmiPending_ppuOwed (s : State) (v : Bool) : (s.setNmiPending v).ppuOwed = s.ppuOwed := rfl

@[simp] theorem State.halt_cart (s : State) : (s.halt).cart = s.cart := rfl
@[simp] theorem State.halt_params (s : State) : (s.halt).params = s.params := rfl
@[simp] theorem State.halt_cpu_a (s : State) : (s.halt).cpu.a = s.cpu.a := rfl
@[simp] theorem State.halt_cpu_x (s : State) : (s.halt).cpu.x = s.cpu.x := rfl
@[simp] theorem State.halt_cpu_y (s : State) : (s.halt).cpu.y = s.cpu.y := rfl
@[simp] theorem State.halt_cpu_sp (s : State) : (s.halt).cpu.sp = s.cpu.sp := rfl
@[simp] theorem State.halt_cpu_pc (s : State) : (s.halt).cpu.pc = s.cpu.pc := rfl
@[simp] theorem State.halt_cpu_p (s : State) : (s.halt).cpu.p = s.cpu.p := rfl
@[simp] theorem State.halt_cpu_halted (s : State) : (s.halt).cpu.halted = true := rfl
@[simp] theorem State.halt_cpu_nmiPending (s : State) : (s.halt).cpu.nmiPending = s.cpu.nmiPending := rfl
@[simp] theorem State.halt_ppu (s : State) : (s.halt).ppu = s.ppu := rfl
@[simp] theorem State.halt_ram (s : State) : (s.halt).ram = s.ram := rfl
@[simp] theorem State.halt_ciram (s : State) : (s.halt).ciram = s.ciram := rfl
@[simp] theorem State.halt_palette (s : State) : (s.halt).palette = s.palette := rfl
@[simp] theorem State.halt_chrRam (s : State) : (s.halt).chrRam = s.chrRam := rfl
@[simp] theorem State.halt_schedule (s : State) : (s.halt).schedule = s.schedule := rfl
@[simp] theorem State.halt_ppuOwed (s : State) : (s.halt).ppuOwed = s.ppuOwed := rfl

@[simp] theorem State.advance_cart (s : State) (n : Nat) : (s.advance n).cart = s.cart := rfl
@[simp] theorem State.advance_params (s : State) (n : Nat) : (s.advance n).params = s.params := rfl
@[simp] theorem State.advance_cpu_a (s : State) (n : Nat) : (s.advance n).cpu.a = s.cpu.a := rfl
@[simp] theorem State.advance_cpu_x (s : State) (n : Nat) : (s.advance n).cpu.x = s.cpu.x := rfl
@[simp] theorem State.advance_cpu_y (s : State) (n : Nat) : (s.advance n).cpu.y = s.cpu.y := rfl
@[simp] theorem State.advance_cpu_sp (s : State) (n : Nat) : (s.advance n).cpu.sp = s.cpu.sp := rfl
@[simp] theorem State.advance_cpu_pc (s : State) (n : Nat) : (s.advance n).cpu.pc = s.cpu.pc + BitVec.ofNat 16 n := rfl
@[simp] theorem State.advance_cpu_p (s : State) (n : Nat) : (s.advance n).cpu.p = s.cpu.p := rfl
@[simp] theorem State.advance_cpu_halted (s : State) (n : Nat) : (s.advance n).cpu.halted = s.cpu.halted := rfl
@[simp] theorem State.advance_cpu_nmiPending (s : State) (n : Nat) : (s.advance n).cpu.nmiPending = s.cpu.nmiPending := rfl
@[simp] theorem State.advance_ppu (s : State) (n : Nat) : (s.advance n).ppu = s.ppu := rfl
@[simp] theorem State.advance_ram (s : State) (n : Nat) : (s.advance n).ram = s.ram := rfl
@[simp] theorem State.advance_ciram (s : State) (n : Nat) : (s.advance n).ciram = s.ciram := rfl
@[simp] theorem State.advance_palette (s : State) (n : Nat) : (s.advance n).palette = s.palette := rfl
@[simp] theorem State.advance_chrRam (s : State) (n : Nat) : (s.advance n).chrRam = s.chrRam := rfl
@[simp] theorem State.advance_schedule (s : State) (n : Nat) : (s.advance n).schedule = s.schedule := rfl
@[simp] theorem State.advance_ppuOwed (s : State) (n : Nat) : (s.advance n).ppuOwed = s.ppuOwed := rfl

@[simp] theorem State.setZN_cart (s : State) (r : Byte) : (s.setZN r).cart = s.cart := rfl
@[simp] theorem State.setZN_params (s : State) (r : Byte) : (s.setZN r).params = s.params := rfl
@[simp] theorem State.setZN_cpu_a (s : State) (r : Byte) : (s.setZN r).cpu.a = s.cpu.a := rfl
@[simp] theorem State.setZN_cpu_x (s : State) (r : Byte) : (s.setZN r).cpu.x = s.cpu.x := rfl
@[simp] theorem State.setZN_cpu_y (s : State) (r : Byte) : (s.setZN r).cpu.y = s.cpu.y := rfl
@[simp] theorem State.setZN_cpu_sp (s : State) (r : Byte) : (s.setZN r).cpu.sp = s.cpu.sp := rfl
@[simp] theorem State.setZN_cpu_pc (s : State) (r : Byte) : (s.setZN r).cpu.pc = s.cpu.pc := rfl
@[simp] theorem State.setZN_cpu_p (s : State) (r : Byte) : (s.setZN r).cpu.p = s.cpu.p.withZN r := rfl
@[simp] theorem State.setZN_cpu_halted (s : State) (r : Byte) : (s.setZN r).cpu.halted = s.cpu.halted := rfl
@[simp] theorem State.setZN_cpu_nmiPending (s : State) (r : Byte) : (s.setZN r).cpu.nmiPending = s.cpu.nmiPending := rfl
@[simp] theorem State.setZN_ppu (s : State) (r : Byte) : (s.setZN r).ppu = s.ppu := rfl
@[simp] theorem State.setZN_ram (s : State) (r : Byte) : (s.setZN r).ram = s.ram := rfl
@[simp] theorem State.setZN_ciram (s : State) (r : Byte) : (s.setZN r).ciram = s.ciram := rfl
@[simp] theorem State.setZN_palette (s : State) (r : Byte) : (s.setZN r).palette = s.palette := rfl
@[simp] theorem State.setZN_chrRam (s : State) (r : Byte) : (s.setZN r).chrRam = s.chrRam := rfl
@[simp] theorem State.setZN_schedule (s : State) (r : Byte) : (s.setZN r).schedule = s.schedule := rfl
@[simp] theorem State.setZN_ppuOwed (s : State) (r : Byte) : (s.setZN r).ppuOwed = s.ppuOwed := rfl

@[simp] theorem State.setPpu_cart (s : State) (v : Ppu) : (s.setPpu v).cart = s.cart := rfl
@[simp] theorem State.setPpu_params (s : State) (v : Ppu) : (s.setPpu v).params = s.params := rfl
@[simp] theorem State.setPpu_cpu (s : State) (v : Ppu) : (s.setPpu v).cpu = s.cpu := rfl
@[simp] theorem State.setPpu_ppu (s : State) (v : Ppu) : (s.setPpu v).ppu = v := rfl
@[simp] theorem State.setPpu_ram (s : State) (v : Ppu) : (s.setPpu v).ram = s.ram := rfl
@[simp] theorem State.setPpu_ciram (s : State) (v : Ppu) : (s.setPpu v).ciram = s.ciram := rfl
@[simp] theorem State.setPpu_palette (s : State) (v : Ppu) : (s.setPpu v).palette = s.palette := rfl
@[simp] theorem State.setPpu_chrRam (s : State) (v : Ppu) : (s.setPpu v).chrRam = s.chrRam := rfl
@[simp] theorem State.setPpu_schedule (s : State) (v : Ppu) : (s.setPpu v).schedule = s.schedule := rfl
@[simp] theorem State.setPpu_ppuOwed (s : State) (v : Ppu) : (s.setPpu v).ppuOwed = s.ppuOwed := rfl

@[simp] theorem State.setRam_cart (s : State) (v : Memory) : (s.setRam v).cart = s.cart := rfl
@[simp] theorem State.setRam_params (s : State) (v : Memory) : (s.setRam v).params = s.params := rfl
@[simp] theorem State.setRam_cpu (s : State) (v : Memory) : (s.setRam v).cpu = s.cpu := rfl
@[simp] theorem State.setRam_ppu (s : State) (v : Memory) : (s.setRam v).ppu = s.ppu := rfl
@[simp] theorem State.setRam_ram (s : State) (v : Memory) : (s.setRam v).ram = v := rfl
@[simp] theorem State.setRam_ciram (s : State) (v : Memory) : (s.setRam v).ciram = s.ciram := rfl
@[simp] theorem State.setRam_palette (s : State) (v : Memory) : (s.setRam v).palette = s.palette := rfl
@[simp] theorem State.setRam_chrRam (s : State) (v : Memory) : (s.setRam v).chrRam = s.chrRam := rfl
@[simp] theorem State.setRam_schedule (s : State) (v : Memory) : (s.setRam v).schedule = s.schedule := rfl
@[simp] theorem State.setRam_ppuOwed (s : State) (v : Memory) : (s.setRam v).ppuOwed = s.ppuOwed := rfl

@[simp] theorem State.setCiram_cart (s : State) (v : Memory) : (s.setCiram v).cart = s.cart := rfl
@[simp] theorem State.setCiram_params (s : State) (v : Memory) : (s.setCiram v).params = s.params := rfl
@[simp] theorem State.setCiram_cpu (s : State) (v : Memory) : (s.setCiram v).cpu = s.cpu := rfl
@[simp] theorem State.setCiram_ppu (s : State) (v : Memory) : (s.setCiram v).ppu = s.ppu := rfl
@[simp] theorem State.setCiram_ram (s : State) (v : Memory) : (s.setCiram v).ram = s.ram := rfl
@[simp] theorem State.setCiram_ciram (s : State) (v : Memory) : (s.setCiram v).ciram = v := rfl
@[simp] theorem State.setCiram_palette (s : State) (v : Memory) : (s.setCiram v).palette = s.palette := rfl
@[simp] theorem State.setCiram_chrRam (s : State) (v : Memory) : (s.setCiram v).chrRam = s.chrRam := rfl
@[simp] theorem State.setCiram_schedule (s : State) (v : Memory) : (s.setCiram v).schedule = s.schedule := rfl
@[simp] theorem State.setCiram_ppuOwed (s : State) (v : Memory) : (s.setCiram v).ppuOwed = s.ppuOwed := rfl

@[simp] theorem State.setPalette_cart (s : State) (v : Memory) : (s.setPalette v).cart = s.cart := rfl
@[simp] theorem State.setPalette_params (s : State) (v : Memory) : (s.setPalette v).params = s.params := rfl
@[simp] theorem State.setPalette_cpu (s : State) (v : Memory) : (s.setPalette v).cpu = s.cpu := rfl
@[simp] theorem State.setPalette_ppu (s : State) (v : Memory) : (s.setPalette v).ppu = s.ppu := rfl
@[simp] theorem State.setPalette_ram (s : State) (v : Memory) : (s.setPalette v).ram = s.ram := rfl
@[simp] theorem State.setPalette_ciram (s : State) (v : Memory) : (s.setPalette v).ciram = s.ciram := rfl
@[simp] theorem State.setPalette_palette (s : State) (v : Memory) : (s.setPalette v).palette = v := rfl
@[simp] theorem State.setPalette_chrRam (s : State) (v : Memory) : (s.setPalette v).chrRam = s.chrRam := rfl
@[simp] theorem State.setPalette_schedule (s : State) (v : Memory) : (s.setPalette v).schedule = s.schedule := rfl
@[simp] theorem State.setPalette_ppuOwed (s : State) (v : Memory) : (s.setPalette v).ppuOwed = s.ppuOwed := rfl

@[simp] theorem State.setChrRam_cart (s : State) (v : Memory) : (s.setChrRam v).cart = s.cart := rfl
@[simp] theorem State.setChrRam_params (s : State) (v : Memory) : (s.setChrRam v).params = s.params := rfl
@[simp] theorem State.setChrRam_cpu (s : State) (v : Memory) : (s.setChrRam v).cpu = s.cpu := rfl
@[simp] theorem State.setChrRam_ppu (s : State) (v : Memory) : (s.setChrRam v).ppu = s.ppu := rfl
@[simp] theorem State.setChrRam_ram (s : State) (v : Memory) : (s.setChrRam v).ram = s.ram := rfl
@[simp] theorem State.setChrRam_ciram (s : State) (v : Memory) : (s.setChrRam v).ciram = s.ciram := rfl
@[simp] theorem State.setChrRam_palette (s : State) (v : Memory) : (s.setChrRam v).palette = s.palette := rfl
@[simp] theorem State.setChrRam_chrRam (s : State) (v : Memory) : (s.setChrRam v).chrRam = v := rfl
@[simp] theorem State.setChrRam_schedule (s : State) (v : Memory) : (s.setChrRam v).schedule = s.schedule := rfl
@[simp] theorem State.setChrRam_ppuOwed (s : State) (v : Memory) : (s.setChrRam v).ppuOwed = s.ppuOwed := rfl

/-- Replacing the PPU's registers by themselves changes nothing. -/
@[simp] theorem State.setPpu_self (s : State) : s.setPpu s.ppu = s := rfl

/-- Replacing the PPU's registers twice keeps the second. -/
@[simp] theorem State.setPpu_setPpu (s : State) (p q : Ppu) : (s.setPpu p).setPpu q = s.setPpu q := rfl

end Sys2Proof.Machine
end

