-- ==== Sys2Proof/Laws/Ops.lean ====
section
/-!
SUPPORT. What each shared operation can do, once: reads change only the PPU, and only through the aperture; writes change one cell or the PPU; stack
operations change ram and SP. Provers cite these instead of unfolding the operation.
-/

namespace Sys2Proof.Machine

/-- Reading a PPU register changes only the PPU's registers. -/
theorem ppuRegRead_state (n : Nat) (s : State) : (ppuRegRead n s).2 = s.setPpu (ppuRegRead n s).2.ppu := by
  unfold ppuRegRead
  split <;> rfl

/-- Of the PPU, a register read changes only v, w, the sprite flags, the latch and the read buffer (R288, R289, R294). -/
theorem ppuRegRead_ppu (n : Nat) (s : State) :
    (ppuRegRead n s).2.ppu = { s.ppu with
      v := (ppuRegRead n s).2.ppu.v, w := (ppuRegRead n s).2.ppu.w,
      sprite0Hit := (ppuRegRead n s).2.ppu.sprite0Hit, spriteOverflow := (ppuRegRead n s).2.ppu.spriteOverflow,
      latch := (ppuRegRead n s).2.ppu.latch, readBuffer := (ppuRegRead n s).2.ppu.readBuffer } := by
  unfold ppuRegRead
  split <;> rfl

/-- A bus read changes only the PPU's registers. -/
theorem cpuRead_state (a : Word) (s : State) : (cpuRead a s).2 = s.setPpu (cpuRead a s).2.ppu := by
  unfold cpuRead
  split
  · rfl
  · split
    · exact ppuRegRead_state _ s
    · split <;> rfl

/-- Of the PPU, a bus read changes only what a register read changes. -/
theorem cpuRead_ppu (a : Word) (s : State) :
    (cpuRead a s).2.ppu = { s.ppu with
      v := (cpuRead a s).2.ppu.v, w := (cpuRead a s).2.ppu.w,
      sprite0Hit := (cpuRead a s).2.ppu.sprite0Hit, spriteOverflow := (cpuRead a s).2.ppu.spriteOverflow,
      latch := (cpuRead a s).2.ppu.latch, readBuffer := (cpuRead a s).2.ppu.readBuffer } := by
  unfold cpuRead
  split
  · rfl
  · split
    · exact ppuRegRead_ppu _ s
    · split <;> rfl

/-- A bus read outside the aperture has no side effect (R57). -/
theorem cpuRead_outside {a : Word} (s : State) (h : a.toNat < 0x2000 ∨ 0x4000 ≤ a.toNat) : (cpuRead a s).2 = s := by
  unfold cpuRead
  split
  · rfl
  · split
    · omega
    · split <;> rfl

/-- A read of a register other than 2 and 7 changes no state (R288). -/
theorem ppuRegRead_quiet {n : Nat} (s : State) (h2 : n ≠ 2) (h7 : n ≠ 7) : (ppuRegRead n s).2 = s := by
  unfold ppuRegRead
  split
  · exact absurd rfl h2
  · exact absurd rfl h7
  · rfl

/-- A bus read has a side effect only at registers 2 and 7 of the aperture (R57, R288). -/
theorem cpuRead_quiet {a : Word} (s : State)
    (h : 0x2000 ≤ a.toNat → a.toNat < 0x4000 → ppuRegister a ≠ 2 ∧ ppuRegister a ≠ 7) : (cpuRead a s).2 = s := by
  by_cases ha : a.toNat < 0x2000 ∨ 0x4000 ≤ a.toNat
  · exact cpuRead_outside s ha
  · obtain ⟨h2, h7⟩ := h (by omega) (by omega)
    unfold cpuRead
    rw [if_neg (by omega), if_pos (by omega)]
    exact ppuRegRead_quiet s h2 h7

@[simp] theorem cpuRead_cart (a : Word) (s : State) : (cpuRead a s).2.cart = s.cart := by rw [cpuRead_state]; rfl
@[simp] theorem cpuRead_params (a : Word) (s : State) : (cpuRead a s).2.params = s.params := by rw [cpuRead_state]; rfl
@[simp] theorem cpuRead_cpu (a : Word) (s : State) : (cpuRead a s).2.cpu = s.cpu := by rw [cpuRead_state]; rfl
@[simp] theorem cpuRead_ram (a : Word) (s : State) : (cpuRead a s).2.ram = s.ram := by rw [cpuRead_state]; rfl
@[simp] theorem cpuRead_ciram (a : Word) (s : State) : (cpuRead a s).2.ciram = s.ciram := by rw [cpuRead_state]; rfl
@[simp] theorem cpuRead_palette (a : Word) (s : State) : (cpuRead a s).2.palette = s.palette := by rw [cpuRead_state]; rfl
@[simp] theorem cpuRead_chrRam (a : Word) (s : State) : (cpuRead a s).2.chrRam = s.chrRam := by rw [cpuRead_state]; rfl
@[simp] theorem cpuRead_schedule (a : Word) (s : State) : (cpuRead a s).2.schedule = s.schedule := by
  rw [cpuRead_state]; rfl
@[simp] theorem cpuRead_ppuOwed (a : Word) (s : State) : (cpuRead a s).2.ppuOwed = s.ppuOwed := by
  rw [cpuRead_state]; rfl

/-- Writing VideoMemory leaves everything but its three writable memories alone. -/
theorem videoWrite_frame (s : State) (a : Nat) (d : Byte) :
    videoWrite s a d = { s with
      ciram := (videoWrite s a d).ciram, palette := (videoWrite s a d).palette, chrRam := (videoWrite s a d).chrRam } := by
  unfold videoWrite
  split <;> rfl

@[simp] theorem videoWrite_ppu (s : State) (a : Nat) (d : Byte) : (videoWrite s a d).ppu = s.ppu := by
  rw [videoWrite_frame]

/-- Writing a PPU register changes only the PPU's registers, VideoMemory and the NMI slot (R290). -/
theorem ppuRegWrite_frame (n : Nat) (d : Byte) (s : State) :
    ppuRegWrite n d s = { s with
      ppu := (ppuRegWrite n d s).ppu, cpu := { s.cpu with nmiPending := (ppuRegWrite n d s).cpu.nmiPending },
      ciram := (ppuRegWrite n d s).ciram, palette := (ppuRegWrite n d s).palette, chrRam := (ppuRegWrite n d s).chrRam } := by
  unfold ppuRegWrite ppuRegEffect
  split
  · unfold writeControl
    split <;> rfl
  · rfl
  · rfl
  · unfold writeScroll
    split <;> rfl
  · unfold writeAddress
    split <;> rfl
  · unfold writeData
    rw [videoWrite_frame]
    rfl
  · rfl

/-- A register write moves none of the counters and neither vblank nor the sprite flags; it leaves the read buffer (R290). -/
theorem ppuRegWrite_ppu (n : Nat) (d : Byte) (s : State) :
    (ppuRegWrite n d s).ppu = { s.ppu with
      v := (ppuRegWrite n d s).ppu.v, t := (ppuRegWrite n d s).ppu.t, x := (ppuRegWrite n d s).ppu.x,
      w := (ppuRegWrite n d s).ppu.w, ctrl := (ppuRegWrite n d s).ppu.ctrl, mask := (ppuRegWrite n d s).ppu.mask,
      oamAddr := (ppuRegWrite n d s).ppu.oamAddr, latch := (ppuRegWrite n d s).ppu.latch } := by
  unfold ppuRegWrite ppuRegEffect
  split
  · unfold writeControl
    split <;> rfl
  · rfl
  · rfl
  · unfold writeScroll
    split <;> rfl
  · unfold writeAddress
    split <;> rfl
  · simp only [writeData, State.setPpu, videoWrite_ppu]
  · rfl

/-- A bus write changes only ram, the PPU's registers, VideoMemory and the NMI slot (R56). -/
theorem cpuWrite_frame (a : Word) (v : Byte) (s : State) :
    cpuWrite a v s = { s with
      ppu := (cpuWrite a v s).ppu, cpu := { s.cpu with nmiPending := (cpuWrite a v s).cpu.nmiPending },
      ram := (cpuWrite a v s).ram, ciram := (cpuWrite a v s).ciram, palette := (cpuWrite a v s).palette,
      chrRam := (cpuWrite a v s).chrRam } := by
  unfold cpuWrite
  split
  · rfl
  · split
    · rw [ppuRegWrite_frame]
    · rfl

@[simp] theorem cpuWrite_cart (a : Word) (v : Byte) (s : State) : (cpuWrite a v s).cart = s.cart := by rw [cpuWrite_frame]
@[simp] theorem cpuWrite_params (a : Word) (v : Byte) (s : State) : (cpuWrite a v s).params = s.params := by
  rw [cpuWrite_frame]
@[simp] theorem cpuWrite_schedule (a : Word) (v : Byte) (s : State) : (cpuWrite a v s).schedule = s.schedule := by
  rw [cpuWrite_frame]
@[simp] theorem cpuWrite_ppuOwed (a : Word) (v : Byte) (s : State) : (cpuWrite a v s).ppuOwed = s.ppuOwed := by
  rw [cpuWrite_frame]
@[simp] theorem cpuWrite_a (a : Word) (v : Byte) (s : State) : (cpuWrite a v s).cpu.a = s.cpu.a := by rw [cpuWrite_frame]
@[simp] theorem cpuWrite_x (a : Word) (v : Byte) (s : State) : (cpuWrite a v s).cpu.x = s.cpu.x := by rw [cpuWrite_frame]
@[simp] theorem cpuWrite_y (a : Word) (v : Byte) (s : State) : (cpuWrite a v s).cpu.y = s.cpu.y := by rw [cpuWrite_frame]
@[simp] theorem cpuWrite_sp (a : Word) (v : Byte) (s : State) : (cpuWrite a v s).cpu.sp = s.cpu.sp := by
  rw [cpuWrite_frame]
@[simp] theorem cpuWrite_pc (a : Word) (v : Byte) (s : State) : (cpuWrite a v s).cpu.pc = s.cpu.pc := by
  rw [cpuWrite_frame]
@[simp] theorem cpuWrite_p (a : Word) (v : Byte) (s : State) : (cpuWrite a v s).cpu.p = s.cpu.p := by rw [cpuWrite_frame]
@[simp] theorem cpuWrite_halted (a : Word) (v : Byte) (s : State) : (cpuWrite a v s).cpu.halted = s.cpu.halted := by
  rw [cpuWrite_frame]

/-- A push changes ram at $0100 + SP, and SP (R60). -/
theorem push_eq (v : Byte) (s : State) :
    push v s = { s with
      ram := s.ram.write (stackIndex s.cpu.sp) v, cpu := { s.cpu with sp := s.cpu.sp - 1 } } := rfl

/-- A pop changes only SP and reads ram at $0100 + the new SP (R61). -/
theorem pop_eq (s : State) :
    pop s = (s.ram.read (stackIndex (s.cpu.sp + 1)), { s with cpu := { s.cpu with sp := s.cpu.sp + 1 } }) := rfl

/-- A stack index is inside ram. -/
theorem stackIndex_lt (sp : Byte) : stackIndex sp < 0x800 := by
  have := sp.isLt
  simp only [stackIndex]
  omega

/-- A ram index is inside ram. -/
theorem ramIndex_lt (a : Word) : ramIndex a < 0x800 :=
  Nat.mod_lt _ (by decide)

/-- Different stack pointers name different cells. -/
theorem stackIndex_inj {p q : Byte} (h : stackIndex p = stackIndex q) : p = q :=
  BitVec.eq_of_toNat_eq (Nat.add_left_cancel h)

/-- A ciram index is inside ciram. -/
theorem ciramIndex_lt (m : Mirroring) (a : Nat) : ciramIndex m a < 0x800 := by
  cases m <;> simp only [ciramIndex] <;> omega

/-- A palette index is inside the palette. -/
theorem paletteIndex_lt (a : Nat) : paletteIndex a < 0x20 := by
  simp only [paletteIndex]
  split <;> omega

/-- A zero-page pointer is read from ram: outside the aperture (R57, R101). -/
theorem zeroPagePointer_ram (z : Byte) (s : State) :
    zeroPagePointer z s =
      s.ram.read (if s.params.zpPointerWrap then (z + 1).toNat else z.toNat + 1) ++ s.ram.read z.toNat := by
  have hz := z.isLt
  have hz1 := (z + 1).isLt
  have h1 : ((z.setWidth 16 : Word) + 1).toNat = z.toNat + 1 := by bv_omega
  have h2 : (z.setWidth 16 : Word).toNat = z.toNat := by bv_omega
  have h3 : ((z + 1).setWidth 16 : Word).toNat = (z + 1).toNat := by bv_omega
  have lo : z.toNat < 0x2000 := by omega
  have mid : z.toNat + 1 < 0x2000 := by omega
  have hi : (z + 1).toNat < 0x2000 := by omega
  have m1 : z.toNat % 0x800 = z.toNat := by omega
  have m2 : (z.toNat + 1) % 0x800 = z.toNat + 1 := by omega
  have m3 : (z + 1).toNat % 0x800 = (z + 1).toNat := by omega
  simp only [zeroPagePointer]
  split <;> simp only [cpuRead, h1, h2, h3, if_pos lo, if_pos mid, if_pos hi, ramIndex, m1, m2, m3]

end Sys2Proof.Machine
end

