-- ==== Sys2Proof/Laws/Operands.lean ====
section
/-!
SUPPORT. What each operand form, stack word and interrupt operation can do, once, and the PC and flag helpers as plain arithmetic.
-/

namespace Sys2Proof.Machine

/-- The two spellings of "bit 7 of r". -/
theorem msb_eq_bit7 (r : Byte) : r.msb = r.getLsbD 7 := by
  rw [BitVec.msb_eq_getLsbD_last]

/-- A word is its high byte over its low byte (R11). -/
theorem hi8_append_lo8 (w : Word) : hi8 w ++ lo8 w = w := by
  rw [hi8, lo8, BitVec.extractLsb'_append_extractLsb'_eq_extractLsb' (by rfl)]
  exact BitVec.extractLsb'_eq_self

/-- `lo8` as arithmetic. -/
theorem toNat_lo8 (w : Word) : (lo8 w).toNat = w.toNat % 256 := by
  simp [lo8]

/-- `hi8` as arithmetic. -/
theorem toNat_hi8 (w : Word) : (hi8 w).toNat = w.toNat / 256 := by
  have := w.isLt
  simp only [hi8, BitVec.extractLsb'_toNat, Nat.shiftRight_eq_div_pow]
  omega

/-- Two bytes joined, as arithmetic. -/
theorem toNat_append_byte (h l : Byte) : (h ++ l : Word).toNat = 256 * h.toNat + l.toNat := by
  rw [BitVec.toNat_append, Nat.shiftLeft_eq, Nat.mul_comm, ← Nat.two_pow_add_eq_or_of_lt l.isLt]

/-- Reading an operand changes only the PPU's registers (R57, R103). -/
theorem readSource_state (src : Source) (s : State) : (readSource src s).2 = s.setPpu (readSource src s).2.ppu := by
  cases src with
  | imm b => rfl
  | mem m => exact cpuRead_state _ s

@[simp] theorem readSource_cpu (src : Source) (s : State) : (readSource src s).2.cpu = s.cpu := by
  rw [readSource_state]; rfl
@[simp] theorem readSource_cart (src : Source) (s : State) : (readSource src s).2.cart = s.cart := by
  rw [readSource_state]; rfl
@[simp] theorem readSource_params (src : Source) (s : State) : (readSource src s).2.params = s.params := by
  rw [readSource_state]; rfl
@[simp] theorem readSource_ram (src : Source) (s : State) : (readSource src s).2.ram = s.ram := by
  rw [readSource_state]; rfl
@[simp] theorem readSource_schedule (src : Source) (s : State) : (readSource src s).2.schedule = s.schedule := by
  rw [readSource_state]; rfl
@[simp] theorem readSource_ppuOwed (src : Source) (s : State) : (readSource src s).2.ppuOwed = s.ppuOwed := by
  rw [readSource_state]; rfl

/-- The eager read changes only the PPU's registers (R103). -/
theorem eagerRead_state (ea : Word) (s : State) : eagerRead ea s = s.setPpu (eagerRead ea s).ppu := by
  unfold eagerRead
  split
  · exact cpuRead_state _ s
  · rfl

@[simp] theorem eagerRead_cpu (ea : Word) (s : State) : (eagerRead ea s).cpu = s.cpu := by rw [eagerRead_state]; rfl
@[simp] theorem eagerRead_cart (ea : Word) (s : State) : (eagerRead ea s).cart = s.cart := by rw [eagerRead_state]; rfl
@[simp] theorem eagerRead_params (ea : Word) (s : State) : (eagerRead ea s).params = s.params := by
  rw [eagerRead_state]; rfl
@[simp] theorem eagerRead_ram (ea : Word) (s : State) : (eagerRead ea s).ram = s.ram := by rw [eagerRead_state]; rfl

/-- JMP's pointer read changes only the PPU's registers (R100). -/
theorem jumpAddress_state (target : JumpTarget) (s : State) :
    (jumpAddress target s).2 = s.setPpu (jumpAddress target s).2.ppu := by
  cases target with
  | abs addr => rfl
  | ind ptr =>
    simp only [jumpAddress, memRead16]
    rw [cpuRead_state, cpuRead_state ptr s]
    rfl

/-- The results of the shifts as arithmetic mod 256 (R180 to R183). -/
theorem shiftLeft_ofNat : ∀ m : Byte, shiftLeft m = BitVec.ofNat 8 (2 * m.toNat) := by decide

theorem shiftRight_ofNat : ∀ m : Byte, shiftRight m = BitVec.ofNat 8 (m.toNat / 2) := by decide

theorem rotateLeft_ofNat : ∀ (c : Bool) (m : Byte), rotateLeft c m = BitVec.ofNat 8 (2 * m.toNat + c.toNat) := by decide

theorem rotateRight_ofNat : ∀ (c : Bool) (m : Byte), rotateRight c m = BitVec.ofNat 8 (m.toNat / 2 + 128 * c.toNat) := by
  decide

/-- A store is the bus write, after the eager read (R133). -/
theorem storeMem_eq (m : MemMode) (v : Byte) (s : State) :
    storeMem m v s = cpuWrite (effectiveAddress m s) v (eagerRead (effectiveAddress m s) s) := rfl

/-- A read-modify-write is one bus read, then one bus write of the effective address (R66, D8). -/
theorem modifyMem_eq (m : MemMode) (f : Byte → Byte) (s : State) :
    modifyMem m f s =
      ((cpuRead (effectiveAddress m s) s).1,
        cpuWrite (effectiveAddress m s) (f (cpuRead (effectiveAddress m s) s).1) (cpuRead (effectiveAddress m s) s).2) := rfl

/-- A branch changes only PC (R193). -/
theorem branch_eq (taken : Bool) (rel : Byte) (s : State) :
    branch taken rel s = s.setPC (if taken then s.cpu.pc + 2 + rel.signExtend 16 else s.cpu.pc + 2) := by
  cases taken <;> rfl

/-- A pushed word: two ram cells, and SP (R59, R60). -/
theorem pushWord_eq (w : Word) (s : State) :
    pushWord w s = { s with
      ram := (s.ram.write (stackIndex s.cpu.sp) (hi8 w)).write (stackIndex (s.cpu.sp - 1)) (lo8 w)
      cpu := { s.cpu with sp := s.cpu.sp - 2 } } := by
  have h : s.cpu.sp - 1 - 1 = s.cpu.sp - 2 := by bv_omega
  simp only [pushWord, push_eq, h]

/-- A popped word: the low byte first, and SP (R61, R192). -/
theorem popWord_eq (s : State) :
    popWord s = (s.ram.read (stackIndex (s.cpu.sp + 2)) ++ s.ram.read (stackIndex (s.cpu.sp + 1)),
      { s with cpu := { s.cpu with sp := s.cpu.sp + 2 } }) := by
  have h : s.cpu.sp + 1 + 1 = s.cpu.sp + 2 := by bv_omega
  simp only [popWord, pop_eq, h]

/-- A 16-bit read with both bytes in the PRG window comes from the image and has no side effect (R55, R57, R58). -/
theorem memRead16_prg {a : Word} (s : State) (h : 0x8000 ≤ a.toNat) (h1 : 0x8000 ≤ (a + 1).toNat) :
    memRead16 a s = (s.cart.prg.read (prgIndex s.cart (a + 1)) ++ s.cart.prg.read (prgIndex s.cart a), s) := by
  have prg : ∀ b : Word, 0x8000 ≤ b.toNat → cpuRead b s = (s.cart.prg.read (prgIndex s.cart b), s) := by
    intro b hb
    rw [cpuRead, if_neg (by omega), if_neg (by omega), if_neg (by omega)]
  simp only [memRead16, prg a h, prg (a + 1) h1]

/-- Entering a handler from a vector in the PRG window: three ram cells, SP, B, I and PC (R220, R260). -/
theorem enterInterrupt_eq (ret vector : Word) (b : Bool) (s : State) (h : 0x8000 ≤ vector.toNat)
    (h1 : 0x8000 ≤ (vector + 1).toNat) :
    enterInterrupt ret vector b s = { s with
      ram := ((s.ram.write (stackIndex s.cpu.sp) (hi8 ret)).write (stackIndex (s.cpu.sp - 1)) (lo8 ret)).write
        (stackIndex (s.cpu.sp - 2)) { s.cpu.p with b := b }.serialize
      cpu := { s.cpu with
        sp := s.cpu.sp - 3
        p := { s.cpu.p with b := b, i := true }
        pc := s.cart.prg.read (prgIndex s.cart (vector + 1)) ++ s.cart.prg.read (prgIndex s.cart vector) } } := by
  have h3 : s.cpu.sp - 2 - 1 = s.cpu.sp - 3 := by bv_omega
  simp only [enterInterrupt, pushWord_eq, push_eq, State.setP, h3]
  rw [memRead16_prg _ h h1]
  rfl

/-- Returning from a handler: the flags, PC and SP (R223). -/
theorem returnFromInterrupt_eq (s : State) :
    returnFromInterrupt s = { s with cpu := { s.cpu with
      p := Status.deserialize (s.ram.read (stackIndex (s.cpu.sp + 1)))
      sp := s.cpu.sp + 3
      pc := s.ram.read (stackIndex (s.cpu.sp + 3)) ++ s.ram.read (stackIndex (s.cpu.sp + 2)) } } := by
  have h2 : s.cpu.sp + 1 + 1 = s.cpu.sp + 2 := by bv_omega
  have h3 : s.cpu.sp + 1 + 2 = s.cpu.sp + 3 := by bv_omega
  simp only [returnFromInterrupt, pop_eq, popWord_eq, State.setP, State.setPC, h2, h3]

/-- An unofficial opcode changes only PC and the halted flag (R240, R241). -/
theorem unofficial_cases (i : Instr) (s : State) :
    unofficial i s = (s.advance 1).halt ∨ unofficial i s = s.advance i.length := by
  unfold unofficial
  split
  · split
    · exact .inl rfl
    · exact .inr rfl
  · exact .inr rfl

end Sys2Proof.Machine
end

