-- ==== Sys2Proof/Laws/Video.lean ====
section
/-!
SUPPORT. The fields of a loopy register, bit by bit, and reading VideoMemory after a write.
-/

namespace Sys2Proof.Machine

/-- Bit `k` of a loopy register built from its fields (R270). -/
theorem getLsbD_loopy (fy : BitVec 3) (nt : BitVec 2) (cy cx : BitVec 5) (k : Nat) :
    (loopy fy nt cy cx).getLsbD k =
      if k < 5 then cx.getLsbD k else if k < 10 then cy.getLsbD (k - 5)
      else if k < 12 then nt.getLsbD (k - 10) else fy.getLsbD (k - 12) := by
  simp only [loopy, BitVec.getLsbD_append]
  by_cases h1 : k < 5
  · rw [if_pos h1, if_pos h1]
  rw [if_neg h1, if_neg h1]
  by_cases h2 : k < 10
  · rw [if_pos (by omega), if_pos h2]
  rw [if_neg (by omega), if_neg h2]
  by_cases h3 : k < 12
  · rw [if_pos (by omega), if_pos h3, show k - 5 - 5 = k - 10 by omega]
  · rw [if_neg (by omega), if_neg h3, show k - 5 - 5 - 2 = k - 12 by omega]

@[simp] theorem coarseX_loopy (fy : BitVec 3) (nt : BitVec 2) (cy cx : BitVec 5) : coarseX (loopy fy nt cy cx) = cx := by
  apply BitVec.eq_of_getLsbD_eq
  intro k hk
  rw [coarseX, BitVec.getLsbD_extractLsb', getLsbD_loopy, Nat.zero_add, if_pos hk]
  simp [hk]

@[simp] theorem coarseY_loopy (fy : BitVec 3) (nt : BitVec 2) (cy cx : BitVec 5) : coarseY (loopy fy nt cy cx) = cy := by
  apply BitVec.eq_of_getLsbD_eq
  intro k hk
  rw [coarseY, BitVec.getLsbD_extractLsb', getLsbD_loopy, if_neg (by omega), if_pos (by omega), Nat.add_sub_cancel_left]
  simp [hk]

@[simp] theorem nametable_loopy (fy : BitVec 3) (nt : BitVec 2) (cy cx : BitVec 5) :
    nametable (loopy fy nt cy cx) = nt := by
  apply BitVec.eq_of_getLsbD_eq
  intro k hk
  rw [nametable, BitVec.getLsbD_extractLsb', getLsbD_loopy, if_neg (by omega), if_neg (by omega), if_pos (by omega),
    Nat.add_sub_cancel_left]
  simp [hk]

@[simp] theorem fineY_loopy (fy : BitVec 3) (nt : BitVec 2) (cy cx : BitVec 5) : fineY (loopy fy nt cy cx) = fy := by
  apply BitVec.eq_of_getLsbD_eq
  intro k hk
  rw [fineY, BitVec.getLsbD_extractLsb', getLsbD_loopy, if_neg (by omega), if_neg (by omega), if_neg (by omega),
    Nat.add_sub_cancel_left]
  simp [hk]

/-- The four cells an address can reach, each with an index inside its memory (R69 to R72). -/
theorem videoCell_cases (cart : Cartridge) (a : Nat) :
    (cart.chrRom.isSome = true ∧ a % 0x4000 < 0x2000 ∧ videoCell cart a = .chrRom (a % 0x4000))
      ∨ (cart.chrRom.isSome = false ∧ a % 0x4000 < 0x2000 ∧ videoCell cart a = .chrRam (a % 0x4000))
      ∨ (∃ k < 0x800, 0x2000 ≤ a % 0x4000 ∧ videoCell cart a = .ciram k)
      ∨ ∃ k < 0x20, 0x3F00 ≤ a % 0x4000 ∧ videoCell cart a = .palette k := by
  simp only [videoCell]
  by_cases h1 : a % 0x4000 < 0x2000
  · cases h : cart.chrRom.isSome
    · exact .inr (.inl ⟨rfl, h1, by rw [if_pos h1, if_neg (by decide)]⟩)
    · exact .inl ⟨rfl, h1, by rw [if_pos h1, if_pos rfl]⟩
  · by_cases h2 : a % 0x4000 < 0x3F00
    · exact .inr (.inr (.inl ⟨_, ciramIndex_lt _ _, by omega, by rw [if_neg h1, if_pos h2]⟩))
    · exact .inr (.inr (.inr ⟨_, paletteIndex_lt _, by omega, by rw [if_neg h1, if_neg h2]⟩))

/-- What a VideoMemory write does, by the cell it reaches (R70 to R73). -/
theorem videoWrite_cases (s : State) (a : Nat) (d : Byte) :
    videoWrite s a d = s
      ∨ (∃ k < 0x2000, s.cart.chrRom.isSome = false ∧ videoWrite s a d = s.setChrRam (s.chrRam.write k d))
      ∨ (∃ k < 0x800, videoWrite s a d = s.setCiram (s.ciram.write k d))
      ∨ ∃ k < 0x20, videoWrite s a d = s.setPalette (s.palette.write k d) := by
  simp only [videoWrite]
  rcases videoCell_cases s.cart a with ⟨_, _, e⟩ | ⟨h, hk, e⟩ | ⟨k, hk, _, e⟩ | ⟨k, hk, _, e⟩ <;> rw [e]
  · exact .inl rfl
  · exact .inr (.inl ⟨_, hk, h, rfl⟩)
  · exact .inr (.inr (.inl ⟨_, hk, rfl⟩))
  · exact .inr (.inr (.inr ⟨_, hk, rfl⟩))

/-- A VideoMemory read depends on the cell only. -/
theorem videoRead_cell {s : State} {a b : Nat} (h : videoCell s.cart a = videoCell s.cart b) : videoRead s a = videoRead s b := by
  simp only [videoRead, h]

/-- A write leaves every other cell alone (R70 to R73). -/
theorem videoRead_videoWrite_other {s : State} {a b : Nat} {d : Byte} (hi : s.ciram.wf = true) (hp : s.palette.wf = true)
    (hc : s.chrRam.wf = true) (h : videoCell s.cart b ≠ videoCell s.cart a) :
    videoRead (videoWrite s a d) b = videoRead s b := by
  have hcart : (videoWrite s a d).cart = s.cart := by rw [videoWrite_frame]
  simp only [videoRead, hcart]
  simp only [videoWrite]
  cases ha : videoCell s.cart a <;> cases hb : videoCell s.cart b <;> simp only [ha, hb, ne_eq,
    VideoCell.chrRam.injEq, VideoCell.ciram.injEq, VideoCell.palette.injEq] at h ⊢ <;> first
    | rfl
    | exact (Memory.read_write hc _ _ _).trans (if_neg h)
    | exact (Memory.read_write hi _ _ _).trans (if_neg h)
    | exact (Memory.read_write hp _ _ _).trans (if_neg h)

end Sys2Proof.Machine
end

