-- ==== Sys2Proof/Laws/Invariant.lean ====
section
/-!
SUPPORT. The shared operations keep `State.Sound`: configuration, canonical memories, counters in range.
-/

namespace Sys2Proof.Machine

/-- `Sound` looks only at the configuration, the memories, the PPU's counters and sprite flags, and the read buffer. -/
theorem State.Sound.of_same {s t : State} (h : s.Sound) (cart : t.cart = s.cart) (params : t.params = s.params)
    (ram : t.ram = s.ram) (ciram : t.ciram = s.ciram) (palette : t.palette = s.palette) (chrRam : t.chrRam = s.chrRam)
    (ppu : t.ppu = { t.ppu with scanline := s.ppu.scanline, cycle := s.ppu.cycle, oddFrame := s.ppu.oddFrame })
    (hit : t.ppu.sprite0Hit = false) (overflow : t.ppu.spriteOverflow = false)
    (buffer : s.params.ppudataReadBuffered = false → t.ppu.readBuffer = 0) : t.Sound where
  cart := cart ▸ h.cart
  params := params ▸ h.params
  ram := ram ▸ h.ram
  ciram := ciram ▸ h.ciram
  palette := palette ▸ h.palette
  chrRam := chrRam ▸ h.chrRam
  chrRamAbsent := by rw [cart, chrRam]; exact h.chrRamAbsent
  scanline := by rw [ppu]; exact h.scanline
  cycle := by rw [ppu]; exact h.cycle
  skippedDot := by rw [params, ppu]; exact h.skippedDot
  sprite0Hit := hit
  spriteOverflow := overflow
  readBuffer := by rw [params]; exact buffer

/-- A change of the CPU's registers alone keeps `Sound`. -/
theorem State.Sound.of_cpu {s t : State} (h : s.Sound) (c : Cpu) (e : t = { s with cpu := c }) : t.Sound := by
  subst e
  exact h.of_same rfl rfl rfl rfl rfl rfl rfl h.sprite0Hit h.spriteOverflow h.readBuffer

/-- A write inside a canonical memory leaves it canonical. -/
theorem Canonical.write {n k : Nat} {m : Memory} (h : Canonical n m) (hk : k < n) (v : Byte) :
    Canonical n (Memory.write m k v) :=
  ⟨Memory.write_wf k v h.1, Memory.write_below hk h.2⟩

/-- A ram write keeps `Sound` (R39). -/
theorem State.Sound.setRam {s : State} (h : s.Sound) {k : Nat} (hk : k < 0x800) (v : Byte) :
    (s.setRam (s.ram.write k v)).Sound :=
  { h with ram := h.ram.write hk v }

/-- A push keeps `Sound` (R60). -/
theorem State.Sound.push {s : State} (h : s.Sound) (v : Byte) : (push v s).Sound :=
  (h.setRam (stackIndex_lt _) v).of_cpu _ rfl

/-- A PPU register read keeps `Sound` (R288, R289, R294). -/
theorem State.Sound.ppuRegRead {s : State} (h : s.Sound) (n : Nat) : (ppuRegRead n s).2.Sound := by
  unfold Machine.ppuRegRead
  split
  · exact h.of_same rfl rfl rfl rfl rfl rfl rfl rfl rfl h.readBuffer
  · refine h.of_same rfl rfl rfl rfl rfl rfl rfl h.sprite0Hit h.spriteOverflow fun hb => ?_
    simp only [readData, dataFetch, hb, State.setPpu, if_neg Bool.false_ne_true]
    exact h.readBuffer hb
  · exact h

/-- A bus read keeps `Sound`. -/
theorem State.Sound.cpuRead {s : State} (h : s.Sound) (a : Word) : (cpuRead a s).2.Sound := by
  unfold Machine.cpuRead
  split
  · exact h
  · split
    · exact h.ppuRegRead _
    · split <;> exact h

/-- A VideoMemory write keeps `Sound` (R39, R70). -/
theorem State.Sound.videoWrite {s : State} (h : s.Sound) (a : Nat) (d : Byte) : (videoWrite s a d).Sound := by
  rcases videoWrite_cases s a d with e | ⟨k, hk, hc, e⟩ | ⟨k, hk, e⟩ | ⟨k, hk, e⟩ <;> rw [e]
  · exact h
  · exact { h with chrRam := h.chrRam.write hk d, chrRamAbsent := fun hs => absurd hs (by simp only [setChrRam, hc]; decide) }
  · exact { h with ciram := h.ciram.write hk d }
  · exact { h with palette := h.palette.write hk d }

/-- A PPU register write keeps `Sound` (R290). -/
theorem State.Sound.ppuRegWrite {s : State} (h : s.Sound) (n : Nat) (d : Byte) : (ppuRegWrite n d s).Sound := by
  have h' : (s.setPpu { s.ppu with latch := d }).Sound :=
    h.of_same rfl rfl rfl rfl rfl rfl rfl h.sprite0Hit h.spriteOverflow h.readBuffer
  unfold Machine.ppuRegWrite ppuRegEffect
  split
  · unfold writeControl
    split <;> exact h'.of_same rfl rfl rfl rfl rfl rfl rfl h'.sprite0Hit h'.spriteOverflow h'.readBuffer
  · exact h'.of_same rfl rfl rfl rfl rfl rfl rfl h'.sprite0Hit h'.spriteOverflow h'.readBuffer
  · exact h'.of_same rfl rfl rfl rfl rfl rfl rfl h'.sprite0Hit h'.spriteOverflow h'.readBuffer
  · unfold writeScroll
    split <;> exact h'.of_same rfl rfl rfl rfl rfl rfl rfl h'.sprite0Hit h'.spriteOverflow h'.readBuffer
  · unfold writeAddress
    split <;> exact h'.of_same rfl rfl rfl rfl rfl rfl rfl h'.sprite0Hit h'.spriteOverflow h'.readBuffer
  · have hv := h'.videoWrite (s.setPpu { s.ppu with latch := d }).ppu.v.toNat d
    exact hv.of_same rfl rfl rfl rfl rfl rfl rfl hv.sprite0Hit hv.spriteOverflow hv.readBuffer
  · exact h'

/-- A bus write keeps `Sound`. -/
theorem State.Sound.cpuWrite {s : State} (h : s.Sound) (a : Word) (v : Byte) : (cpuWrite a v s).Sound := by
  unfold Machine.cpuWrite
  split
  · exact h.setRam (ramIndex_lt a) v
  · split
    · exact h.ppuRegWrite _ v
    · exact h

end Sys2Proof.Machine
end

