-- ==== Sys2Proof/Laws/PerInstr.lean ====
section
/-!
SUPPORT. A family of statements made once per constructor of `Instr`: its encoding has as many bytes as its mode says, and exists exactly when
the table has a cell for it.
-/

namespace Sys2Proof.Laws.LengthByMode

/-- The encoding exists exactly for a well-formed instruction (R104), and its bytes are the opcode byte and the operand bytes of its mode (R90, R91). -/
def Statement (i : Instr) : Prop :=
  i.wf = i.opcode.isSome ∧ i.operandBytes.length + 1 = i.length

theorem lda (src : Source) : Statement (.lda src) := by
  rcases src with _ | m
  · exact ⟨rfl, rfl⟩
  · cases m <;> exact ⟨rfl, rfl⟩

theorem ldx (src : Source) : Statement (.ldx src) := by
  rcases src with _ | m
  · exact ⟨rfl, rfl⟩
  · cases m <;> exact ⟨rfl, rfl⟩

theorem ldy (src : Source) : Statement (.ldy src) := by
  rcases src with _ | m
  · exact ⟨rfl, rfl⟩
  · cases m <;> exact ⟨rfl, rfl⟩

theorem sta (dst : MemMode) : Statement (.sta dst) := by
  cases dst <;> exact ⟨rfl, rfl⟩

theorem stx (dst : MemMode) : Statement (.stx dst) := by
  cases dst <;> exact ⟨rfl, rfl⟩

theorem sty (dst : MemMode) : Statement (.sty dst) := by
  cases dst <;> exact ⟨rfl, rfl⟩

theorem tax : Statement .tax := ⟨rfl, rfl⟩

theorem tay : Statement .tay := ⟨rfl, rfl⟩

theorem txa : Statement .txa := ⟨rfl, rfl⟩

theorem tya : Statement .tya := ⟨rfl, rfl⟩

theorem tsx : Statement .tsx := ⟨rfl, rfl⟩

theorem txs : Statement .txs := ⟨rfl, rfl⟩

theorem adc (src : Source) : Statement (.adc src) := by
  rcases src with _ | m
  · exact ⟨rfl, rfl⟩
  · cases m <;> exact ⟨rfl, rfl⟩

theorem sbc (src : Source) : Statement (.sbc src) := by
  rcases src with _ | m
  · exact ⟨rfl, rfl⟩
  · cases m <;> exact ⟨rfl, rfl⟩

theorem and (src : Source) : Statement (.and src) := by
  rcases src with _ | m
  · exact ⟨rfl, rfl⟩
  · cases m <;> exact ⟨rfl, rfl⟩

theorem ora (src : Source) : Statement (.ora src) := by
  rcases src with _ | m
  · exact ⟨rfl, rfl⟩
  · cases m <;> exact ⟨rfl, rfl⟩

theorem eor (src : Source) : Statement (.eor src) := by
  rcases src with _ | m
  · exact ⟨rfl, rfl⟩
  · cases m <;> exact ⟨rfl, rfl⟩

theorem bit (src : MemMode) : Statement (.bit src) := by
  cases src <;> exact ⟨rfl, rfl⟩

theorem cmp (src : Source) : Statement (.cmp src) := by
  rcases src with _ | m
  · exact ⟨rfl, rfl⟩
  · cases m <;> exact ⟨rfl, rfl⟩

theorem cpx (src : Source) : Statement (.cpx src) := by
  rcases src with _ | m
  · exact ⟨rfl, rfl⟩
  · cases m <;> exact ⟨rfl, rfl⟩

theorem cpy (src : Source) : Statement (.cpy src) := by
  rcases src with _ | m
  · exact ⟨rfl, rfl⟩
  · cases m <;> exact ⟨rfl, rfl⟩

theorem inc (dst : MemMode) : Statement (.inc dst) := by
  cases dst <;> exact ⟨rfl, rfl⟩

theorem dec (dst : MemMode) : Statement (.dec dst) := by
  cases dst <;> exact ⟨rfl, rfl⟩

theorem inx : Statement .inx := ⟨rfl, rfl⟩

theorem iny : Statement .iny := ⟨rfl, rfl⟩

theorem dex : Statement .dex := ⟨rfl, rfl⟩

theorem dey : Statement .dey := ⟨rfl, rfl⟩

theorem asl (dst : Target) : Statement (.asl dst) := by
  rcases dst with _ | m
  · exact ⟨rfl, rfl⟩
  · cases m <;> exact ⟨rfl, rfl⟩

theorem lsr (dst : Target) : Statement (.lsr dst) := by
  rcases dst with _ | m
  · exact ⟨rfl, rfl⟩
  · cases m <;> exact ⟨rfl, rfl⟩

theorem rol (dst : Target) : Statement (.rol dst) := by
  rcases dst with _ | m
  · exact ⟨rfl, rfl⟩
  · cases m <;> exact ⟨rfl, rfl⟩

theorem ror (dst : Target) : Statement (.ror dst) := by
  rcases dst with _ | m
  · exact ⟨rfl, rfl⟩
  · cases m <;> exact ⟨rfl, rfl⟩

theorem jmp (target : JumpTarget) : Statement (.jmp target) := by
  cases target <;> exact ⟨rfl, rfl⟩

theorem jsr (addr : Word) : Statement (.jsr addr) := ⟨rfl, rfl⟩

theorem rts : Statement .rts := ⟨rfl, rfl⟩

theorem bpl (rel : Byte) : Statement (.bpl rel) := ⟨rfl, rfl⟩

theorem bmi (rel : Byte) : Statement (.bmi rel) := ⟨rfl, rfl⟩

theorem bvc (rel : Byte) : Statement (.bvc rel) := ⟨rfl, rfl⟩

theorem bvs (rel : Byte) : Statement (.bvs rel) := ⟨rfl, rfl⟩

theorem bcc (rel : Byte) : Statement (.bcc rel) := ⟨rfl, rfl⟩

theorem bcs (rel : Byte) : Statement (.bcs rel) := ⟨rfl, rfl⟩

theorem bne (rel : Byte) : Statement (.bne rel) := ⟨rfl, rfl⟩

theorem beq (rel : Byte) : Statement (.beq rel) := ⟨rfl, rfl⟩

theorem pha : Statement .pha := ⟨rfl, rfl⟩

theorem pla : Statement .pla := ⟨rfl, rfl⟩

theorem php : Statement .php := ⟨rfl, rfl⟩

theorem plp : Statement .plp := ⟨rfl, rfl⟩

theorem clc : Statement .clc := ⟨rfl, rfl⟩

theorem sec : Statement .sec := ⟨rfl, rfl⟩

theorem cli : Statement .cli := ⟨rfl, rfl⟩

theorem sei : Statement .sei := ⟨rfl, rfl⟩

theorem clv : Statement .clv := ⟨rfl, rfl⟩

theorem nop : Statement .nop := ⟨rfl, rfl⟩

theorem brk : Statement .brk := ⟨rfl, rfl⟩

theorem sed : Statement .sed := ⟨rfl, rfl⟩

theorem cld : Statement .cld := ⟨rfl, rfl⟩

theorem rti : Statement .rti := ⟨rfl, rfl⟩

theorem kil (op : Byte) : Statement (.kil op) := by
  refine ⟨?_, rfl⟩
  simp only [Instr.wf, Instr.opcode]
  cases kilBytes.contains op <;> rfl

theorem nopUnofficial (op : Byte) (operand : Skipped) : Statement (.nopUnofficial op operand) := by
  refine ⟨?_, ?_⟩
  · simp only [Instr.wf, Instr.opcode]
    cases operand.mode.nopBytes.contains op <;> rfl
  · rcases operand with _ | _ | m <;> first | rfl | (cases m <;> rfl)

theorem slo (m : MemMode) : Statement (.slo m) := by
  cases m <;> exact ⟨rfl, rfl⟩

theorem rla (m : MemMode) : Statement (.rla m) := by
  cases m <;> exact ⟨rfl, rfl⟩

theorem sre (m : MemMode) : Statement (.sre m) := by
  cases m <;> exact ⟨rfl, rfl⟩

theorem rra (m : MemMode) : Statement (.rra m) := by
  cases m <;> exact ⟨rfl, rfl⟩

theorem sax (m : MemMode) : Statement (.sax m) := by
  cases m <;> exact ⟨rfl, rfl⟩

theorem lax (src : Source) : Statement (.lax src) := by
  rcases src with _ | m
  · exact ⟨rfl, rfl⟩
  · cases m <;> exact ⟨rfl, rfl⟩

theorem dcp (m : MemMode) : Statement (.dcp m) := by
  cases m <;> exact ⟨rfl, rfl⟩

theorem isc (m : MemMode) : Statement (.isc m) := by
  cases m <;> exact ⟨rfl, rfl⟩

theorem anc (op : Byte) (b : Byte) : Statement (.anc op b) := by
  refine ⟨?_, rfl⟩
  simp only [Instr.wf, Instr.opcode]
  cases ancCells.contains op <;> rfl

theorem alr (b : Byte) : Statement (.alr b) := ⟨rfl, rfl⟩

theorem arr (b : Byte) : Statement (.arr b) := ⟨rfl, rfl⟩

theorem xaa (b : Byte) : Statement (.xaa b) := ⟨rfl, rfl⟩

theorem axs (b : Byte) : Statement (.axs b) := ⟨rfl, rfl⟩

theorem ahx (m : MemMode) : Statement (.ahx m) := by
  cases m <;> exact ⟨rfl, rfl⟩

theorem tas (addr : Word) : Statement (.tas addr) := ⟨rfl, rfl⟩

theorem shy (addr : Word) : Statement (.shy addr) := ⟨rfl, rfl⟩

theorem shx (addr : Word) : Statement (.shx addr) := ⟨rfl, rfl⟩

theorem las (addr : Word) : Statement (.las addr) := ⟨rfl, rfl⟩

theorem usbc (b : Byte) : Statement (.usbc b) := ⟨rfl, rfl⟩

end Sys2Proof.Laws.LengthByMode
end

