-- ==== Sys2Proof/Laws/PpuTick.lean ====
section
/-!
SUPPORT. What a PPU tick can do: the counters move as `advanceCounters` says, and the event touches v, the three status bits and the NMI slot.
-/

namespace Sys2Proof.Machine

/-- When the visible-line events and the dot skip are enabled (R272, R278). -/
theorem renderingActive_iff (s : State) :
    renderingActive s = true ↔
      s.params.renderingGate = false ∨ s.ppu.mask.getLsbD 3 = true ∨ s.ppu.mask.getLsbD 4 = true := by
  simp only [renderingActive, Bool.or_eq_true, Bool.not_eq_true', or_assoc]

/-- Advancing the counters changes only the counters (R271). -/
theorem advanceCounters_frame (s : State) :
    advanceCounters s = { s.ppu with
      scanline := (advanceCounters s).scanline, cycle := (advanceCounters s).cycle
      oddFrame := (advanceCounters s).oddFrame } := by
  simp only [advanceCounters]
  split
  · split <;> rfl
  · rfl

/-- An event changes only the PPU and the NMI slot (R273, R282). -/
theorem performEvent_frame (s : State) :
    performEvent s = { s with
      ppu := (performEvent s).ppu, cpu := { s.cpu with nmiPending := (performEvent s).cpu.nmiPending } } := by
  simp only [performEvent]
  split
  · split <;> rfl
  · split
    · simp only [startVblank]
      split <;> rfl
    · split <;> rfl

/-- Of the PPU, an event changes only v and the three status bits (R273). -/
theorem performEvent_ppu (s : State) :
    (performEvent s).ppu = { s.ppu with
      v := (performEvent s).ppu.v, vblank := (performEvent s).ppu.vblank
      sprite0Hit := (performEvent s).ppu.sprite0Hit, spriteOverflow := (performEvent s).ppu.spriteOverflow } := by
  simp only [performEvent]
  split
  · split <;> rfl
  · split
    · simp only [startVblank]
      split <;> rfl
    · split <;> rfl

/-- The position a tick reaches is the advanced one (R271). -/
theorem ppuTick_position (s : State) :
    (ppuTick s).ppu.scanline = (advanceCounters s).scanline ∧ (ppuTick s).ppu.cycle = (advanceCounters s).cycle
      ∧ (ppuTick s).ppu.oddFrame = (advanceCounters s).oddFrame := by
  simp only [ppuTick]
  rw [performEvent_ppu]
  exact ⟨rfl, rfl, rfl⟩

/-- A tick that does not pass over a dot moves one cycle on, or to the next scanline, or to the next frame (R271). -/
theorem advanceCounters_noSkip {s : State} (h : skippedCycle s = s.ppu.cycle) :
    advanceCounters s =
      if s.ppu.cycle = 340 then
        if s.ppu.scanline = 261 then { s.ppu with cycle := 0, scanline := 0, oddFrame := !s.ppu.oddFrame }
        else { s.ppu with cycle := 0, scanline := s.ppu.scanline + 1 }
      else { s.ppu with cycle := s.ppu.cycle + 1 } := by
  simp only [advanceCounters, h]
  by_cases h1 : s.ppu.cycle = 340
  · rw [if_pos (by omega), if_pos h1]
    by_cases h2 : s.ppu.scanline = 261
    · rw [if_pos (by omega), if_pos h2]
    · rw [if_neg (by omega), if_neg h2]
  · rw [if_neg (by omega), if_neg h1]

/-- Everything a PPU tick can do: after the counters, exactly one of a visible-line event, the start of vblank, its end, or nothing (R273). -/
theorem ppuTick_cases (s : State) :
    let p := advanceCounters s
    (p.scanline < 240 ∧ renderingActive s = true ∧ ppuTick s = s.setPpu { p with v := visibleEvents p })
      ∨ (p.scanline = 241 ∧ p.cycle = 1 ∧ ppuTick s =
          { s with ppu := { p with vblank := true }, cpu := { s.cpu with nmiPending := s.cpu.nmiPending || s.ppu.ctrl.getLsbD 7 } })
      ∨ (p.scanline = 261 ∧ p.cycle = 1
          ∧ ppuTick s = s.setPpu { p with vblank := false, sprite0Hit := false, spriteOverflow := false })
      ∨ (¬(p.scanline < 240 ∧ renderingActive s = true) ∧ ¬(p.scanline = 241 ∧ p.cycle = 1) ∧ ¬(p.scanline = 261 ∧ p.cycle = 1)
          ∧ ppuTick s = s.setPpu p) := by
  intro p
  have hr : renderingActive (s.setPpu p) = renderingActive s := by
    simp only [renderingActive, State.setPpu, p]
    rw [advanceCounters_frame]
  have hc : p.ctrl = s.ppu.ctrl := by
    simp only [p]
    rw [advanceCounters_frame]
  have hp : (s.setPpu p).ppu = p := rfl
  have ht : ppuTick s = performEvent (s.setPpu p) := rfl
  rw [ht]
  by_cases h1 : p.scanline < 240
  · by_cases h2 : renderingActive s = true
    · exact .inl ⟨h1, h2, by rw [performEvent, hp, if_pos h1, hr, if_pos h2]; rfl⟩
    · exact .inr (.inr (.inr ⟨fun h => h2 h.2, by omega, by omega, by rw [performEvent, hp, if_pos h1, hr, if_neg h2]⟩))
  · by_cases h3 : p.scanline = 241 ∧ p.cycle = 1
    · refine .inr (.inl ⟨h3.1, h3.2, ?_⟩)
      rw [performEvent, hp, if_neg h1, if_pos h3, startVblank, hp, ← hc]
      cases p.ctrl.getLsbD 7
      · rw [Bool.or_false, if_neg Bool.false_ne_true]; rfl
      · rw [Bool.or_true, if_pos rfl]; rfl
    · by_cases h4 : p.scanline = 261 ∧ p.cycle = 1
      · exact .inr (.inr (.inl ⟨h4.1, h4.2, by rw [performEvent, hp, if_neg h1, if_neg h3, if_pos h4]; rfl⟩))
      · exact .inr (.inr (.inr ⟨fun h => h1 h.1, h3, h4, by rw [performEvent, hp, if_neg h1, if_neg h3, if_neg h4]⟩))

end Sys2Proof.Machine
end

