-- ==== Sys2Proof/Tests/Slice0.lean ====
section
/-!
SUPPORT. The model's own tests: ill-formed terms refused, words written out from the spec's encodings, one step per vector of 95_test_vectors.md
(or of the rule named), and a witness for the hypotheses of each statement.
-/

namespace Sys2Proof.Tests

open Sys2Proof Sys2Proof.Machine

/-! ## Helpers -/

/-- The conventions of 95_test_vectors.md: a 16384-byte prg with the code at $8000, everything else as `State.reset`. -/
def placed (code : List Byte) : State :=
  State.launch { Cartridge.blank with prg := Memory.ofBytes 0 code } Params.default Launch.reference

/-- The reset CPU with its flags replaced. -/
def flags (v : Byte) : Cpu :=
  { State.reset.cpu with p := Status.deserialize v }

/-- The state after one step, if there is one. -/
def nextState (s : State) : Option State :=
  match step s with
  | .next t => some t
  | .fault _ | .refused _ => none

/-- One step of `code` from the given registers and ram. -/
def stepped (code : List Byte) (c : Cpu := State.reset.cpu) (ram : Memory := []) : Option State :=
  nextState { placed code with cpu := c, ram := ram }

/-- The same under changed parameters. -/
def steppedWith (params : Params) (code : List Byte) (c : Cpu := State.reset.cpu) (ram : Memory := []) : Option State :=
  nextState { placed code with params := params, cpu := c, ram := ram }

/-- What most vectors look at: A, the status byte, PC. -/
def look (o : Option State) : Option (Byte × Byte × Word) :=
  o.map fun t => (t.cpu.a, t.cpu.p.serialize, t.cpu.pc)

/-- X, Y, SP and the status byte. -/
def lookIndex (o : Option State) : Option (Byte × Byte × Byte × Byte) :=
  o.map fun t => (t.cpu.x, t.cpu.y, t.cpu.sp, t.cpu.p.serialize)

/-- PC and halted. -/
def lookPC (o : Option State) : Option (Word × Bool) :=
  o.map fun t => (t.cpu.pc, t.cpu.halted)

/-- Ram, SP and the status byte. -/
def lookRam (o : Option State) : Option (Memory × Byte × Byte) :=
  o.map fun t => (t.ram, t.cpu.sp, t.cpu.p.serialize)

/-- The reset state with the PPU's registers replaced. -/
def ppuAt (p : Ppu) : State :=
  { placed [0xEA] with ppu := p }


/-! ## WellFormed refuses -/

/-- R130 gives LDA no ZPY form. -/
theorem test_wf_refuses_lda_has_no_zpy : Instr.wf (.lda (.mem (.zpy 0))) = false ∧ encode (.lda (.mem (.zpy 0))) = none := by decide

/-- R131 gives LDX ZPY, not ZPX. -/
theorem test_wf_refuses_ldx_has_no_zpx : Instr.wf (.ldx (.mem (.zpx 0))) = false ∧ encode (.ldx (.mem (.zpx 0))) = none := by decide

/-- R132 gives LDY no indirect form. -/
theorem test_wf_refuses_ldy_has_no_izx : Instr.wf (.ldy (.mem (.izx 0))) = false ∧ encode (.ldy (.mem (.izx 0))) = none := by decide

/-- R133 gives STA no ZPY form. -/
theorem test_wf_refuses_sta_has_no_zpy : Instr.wf (.sta (.zpy 0)) = false ∧ encode (.sta (.zpy 0)) = none := by decide

/-- R134 gives STX no ABY form. -/
theorem test_wf_refuses_stx_has_no_aby : Instr.wf (.stx (.aby 0)) = false ∧ encode (.stx (.aby 0)) = none := by decide

/-- R135 gives STY no ABX form. -/
theorem test_wf_refuses_sty_has_no_abx : Instr.wf (.sty (.abx 0)) = false ∧ encode (.sty (.abx 0)) = none := by decide

/-- R150 gives ADC no ZPY form. -/
theorem test_wf_refuses_adc_has_no_zpy : Instr.wf (.adc (.mem (.zpy 0))) = false ∧ encode (.adc (.mem (.zpy 0))) = none := by decide

/-- R157 gives CPX three modes. -/
theorem test_wf_refuses_cpx_has_no_izy : Instr.wf (.cpx (.mem (.izy 0))) = false ∧ encode (.cpx (.mem (.izy 0))) = none := by decide

/-- R155 gives BIT two modes. -/
theorem test_wf_refuses_bit_has_no_zpx : Instr.wf (.bit (.zpx 0)) = false ∧ encode (.bit (.zpx 0)) = none := by decide

/-- R159 gives INC no ABY form. -/
theorem test_wf_refuses_inc_has_no_aby : Instr.wf (.inc (.aby 0)) = false ∧ encode (.inc (.aby 0)) = none := by decide

/-- R180 gives ASL no indirect form. -/
theorem test_wf_refuses_asl_has_no_izx : Instr.wf (.asl (.mem (.izx 0))) = false ∧ encode (.asl (.mem (.izx 0))) = none := by decide

/-- R104 has no SLO in ZPY. -/
theorem test_wf_refuses_slo_has_no_zpy : Instr.wf (.slo (.zpy 0)) = false ∧ encode (.slo (.zpy 0)) = none := by decide

/-- R104 has no SAX in IZY. -/
theorem test_wf_refuses_sax_has_no_izy : Instr.wf (.sax (.izy 0)) = false ∧ encode (.sax (.izy 0)) = none := by decide

/-- R104 has LAX in ZPY, not ZPX. -/
theorem test_wf_refuses_lax_has_no_zpx : Instr.wf (.lax (.mem (.zpx 0))) = false ∧ encode (.lax (.mem (.zpx 0))) = none := by decide

/-- R104 has AHX in IZY and ABY only. -/
theorem test_wf_refuses_ahx_has_no_zrp : Instr.wf (.ahx (.zrp 0)) = false ∧ encode (.ahx (.zrp 0)) = none := by decide

/-- $EA is the official NOP (R219). -/
theorem test_wf_refuses_nop_byte_is_not_unofficial : Instr.wf (.nopUnofficial 0xEA .imp) = false ∧ encode (.nopUnofficial 0xEA .imp) = none := by decide

/-- $1A is a NOP in IMP (R242). -/
theorem test_wf_refuses_nop_byte_needs_its_mode : Instr.wf (.nopUnofficial 0x1A (.imm 0)) = false ∧ encode (.nopUnofficial 0x1A (.imm 0)) = none := by decide

/-- $82 is a NOP, not a KIL (R240). -/
theorem test_wf_refuses_kil_byte : Instr.wf (.kil 0x82) = false ∧ encode (.kil 0x82) = none := by decide

/-- $4B is ALR; ANC is $0B and $2B (R104). -/
theorem test_wf_refuses_anc_byte : Instr.wf (.anc 0x4B 0) = false ∧ encode (.anc 0x4B 0) = none := by decide

/-! ## Decoding: words written out from the "Encodings" lines -/

/-- LDA IMM A9 (R130). -/
theorem test_decode_lda_immediate : decode [0xA9, 0x80] = .ok (.lda (.imm 0x80), []) ∧ encode (.lda (.imm 0x80)) = some [0xA9, 0x80] := ⟨rfl, rfl⟩

/-- LDX ZPY B6 (R131). -/
theorem test_decode_ldx_zero_page_y : decode [0xB6, 0xF0] = .ok (.ldx (.mem (.zpy 0xF0)), []) ∧ encode (.ldx (.mem (.zpy 0xF0))) = some [0xB6, 0xF0] := ⟨rfl, rfl⟩

/-- STA ABS 8D, low byte first (R133, R90). -/
theorem test_decode_sta_absolute : decode [0x8D, 0x34, 0x12] = .ok (.sta (.abs 0x1234), []) ∧ encode (.sta (.abs 0x1234)) = some [0x8D, 0x34, 0x12] := ⟨rfl, rfl⟩

/-- TXS IMP 9A (R141). -/
theorem test_decode_txs : decode [0x9A] = .ok (.txs, []) ∧ encode (.txs) = some [0x9A] := ⟨rfl, rfl⟩

/-- ADC IZY 71 (R150). -/
theorem test_decode_adc_indirect_y : decode [0x71, 0x20] = .ok (.adc (.mem (.izy 0x20)), []) ∧ encode (.adc (.mem (.izy 0x20))) = some [0x71, 0x20] := ⟨rfl, rfl⟩

/-- CMP ABX DD (R156). -/
theorem test_decode_cmp_absolute_x : decode [0xDD, 0xFF, 0x90] = .ok (.cmp (.mem (.abx 0x90FF)), []) ∧ encode (.cmp (.mem (.abx 0x90FF))) = some [0xDD, 0xFF, 0x90] := ⟨rfl, rfl⟩

/-- BIT ZRP 24 (R155). -/
theorem test_decode_bit_zero_page : decode [0x24, 0x10] = .ok (.bit (.zrp 0x10), []) ∧ encode (.bit (.zrp 0x10)) = some [0x24, 0x10] := ⟨rfl, rfl⟩

/-- INC ABS EE (R159). -/
theorem test_decode_inc_absolute : decode [0xEE, 0x00, 0x90] = .ok (.inc (.abs 0x9000), []) ∧ encode (.inc (.abs 0x9000)) = some [0xEE, 0x00, 0x90] := ⟨rfl, rfl⟩

/-- ROR IMP 6A (R183). -/
theorem test_decode_ror_accumulator : decode [0x6A] = .ok (.ror .acc, []) ∧ encode (.ror .acc) = some [0x6A] := ⟨rfl, rfl⟩

/-- JMP IND 6C (R190). -/
theorem test_decode_jmp_indirect : decode [0x6C, 0xFF, 0x02] = .ok (.jmp (.ind 0x02FF), []) ∧ encode (.jmp (.ind 0x02FF)) = some [0x6C, 0xFF, 0x02] := ⟨rfl, rfl⟩

/-- BNE REL D0 (R200). -/
theorem test_decode_bne : decode [0xD0, 0xFE] = .ok (.bne 0xFE, []) ∧ encode (.bne 0xFE) = some [0xD0, 0xFE] := ⟨rfl, rfl⟩

/-- PLP IMP 28 (R213). -/
theorem test_decode_plp : decode [0x28] = .ok (.plp, []) ∧ encode (.plp) = some [0x28] := ⟨rfl, rfl⟩

/-- RTI IMP 40 (R223). -/
theorem test_decode_rti : decode [0x40] = .ok (.rti, []) ∧ encode (.rti) = some [0x40] := ⟨rfl, rfl⟩

/-- LAX in ZRP at A7 (R104). -/
theorem test_decode_lax : decode [0xA7, 0x10] = .ok (.lax (.mem (.zrp 0x10)), []) ∧ encode (.lax (.mem (.zrp 0x10))) = some [0xA7, 0x10] := ⟨rfl, rfl⟩

/-- KIL at F2 (R240). -/
theorem test_decode_kil : decode [0xF2] = .ok (.kil 0xF2, []) ∧ encode (.kil 0xF2) = some [0xF2] := ⟨rfl, rfl⟩

/-- NOP in ABS at 0C (R242). -/
theorem test_decode_nop_absolute : decode [0x0C, 0x02, 0x20] = .ok (.nopUnofficial 0x0C (.mem (.abs 0x2002)), []) ∧ encode (.nopUnofficial 0x0C (.mem (.abs 0x2002))) = some [0x0C, 0x02, 0x20] := ⟨rfl, rfl⟩

/-- The bytes after the instruction are left (R91). -/
theorem test_decode_leaves_the_rest : decode [0xEA, 0xA9, 0x00] = .ok (.nop, [0xA9, 0x00]) := rfl

/-- Decoding stops only where bytes are missing. -/
theorem test_decode_needs_its_operands : decode [0x8D, 0x00] = .error (.truncated 0x8D) ∧ decode [] = .error .noOpcode := ⟨rfl, rfl⟩

/-- Every byte has one row: 151 official, 12 KIL, 93 other unofficial ones (95_test_vectors.md 1.1). -/
theorem test_table_counts :
    ((List.range 256).filter fun w => !opcodeUnofficial (BitVec.ofNat 8 w)).length = 151
      ∧ ((List.range 256).filter fun w => kilBytes.contains (BitVec.ofNat 8 w)).length = 12
      ∧ ((List.range 256).filter fun w =>
          opcodeUnofficial (BitVec.ofNat 8 w) && !kilBytes.contains (BitVec.ofNat 8 w)).length = 93 := by
  decide +kernel

/-- Every row of the table decodes to a well-formed instruction whose opcode byte is the row's (R93, R104). -/
theorem test_table_rows :
    ((List.range 256).all fun w =>
      match decodeTableWord 8 w with
      | some i => i.wf && i.opcode == some (BitVec.ofNat 8 w)
      | none => false) = true := by
  decide +kernel

/-! ## Loads, stores, transfers (95_test_vectors.md 2.1, 2.2) -/

/-- LDA #$00: Z. -/
theorem test_lda_zero : look (stepped [0xA9, 0x00]) = some (0x00, 0x02, 0x8002) := by decide

/-- `LDA ($FF,X)`: the pointer's high byte is at $0100; the cell of $1234 is $0234 (R52, R101). -/
theorem test_lda_indirect_x :
    look (stepped [0xA1, 0xFF] State.reset.cpu [(0xFF, 0x34), (0x100, 0x12), (0x234, 0x77)]) = some (0x77, 0x00, 0x8002) := by
  decide

/-- The same under `ZP_POINTER_WRAP`: the high byte is at $0000, the pointer $0634 (R101). -/
theorem test_lda_indirect_x_wrapped :
    look (steppedWith { Params.default with zpPointerWrap := true } [0xA1, 0xFF] State.reset.cpu
      [(0x00, 0x06), (0xFF, 0x34), (0x100, 0x12), (0x634, 0x99)]) = some (0x99, 0x80, 0x8002) := by
  decide

/-- `LDX $F0,Y` wraps to $10. -/
theorem test_ldx_zero_page_y : lookIndex (stepped [0xB6, 0xF0] ({ State.reset.cpu with y := 0x20 }) [(0x10, 0x5A)]) = some (0x5A, 0x20, 0xFF, 0x00) := by decide

/-- `LDY $FFFF,X` wraps to $0000 (R99). -/
theorem test_ldy_absolute_x : lookIndex (stepped [0xBC, 0xFF, 0xFF] ({ State.reset.cpu with x := 1 }) [(0x00, 0x11)]) = some (0x01, 0x11, 0xFF, 0x00) := by decide

/-- `STA $0800` writes ram[$0000]. -/
theorem test_sta_mirror : lookRam (stepped [0x8D, 0x00, 0x08] ({ State.reset.cpu with a := 0x3C })) = some ([(0x00, 0x3C)], 0xFF, 0x00) := by decide

/-- `STA $8000` is dropped. -/
theorem test_sta_rom_is_dropped : lookRam (stepped [0x8D, 0x00, 0x80] ({ State.reset.cpu with a := 0x3C })) = some ([], 0xFF, 0x00) := by decide

/-- `STX $FF,Y` wraps to $01 (R98, R134). -/
theorem test_stx_zero_page_y : lookRam (stepped [0x96, 0xFF] ({ State.reset.cpu with x := 0x7E, y := 2 })) = some ([(0x01, 0x7E)], 0xFF, 0x00) := by decide

/-- `STY $10` writes no flag (R135). -/
theorem test_sty_zero_page : lookRam (stepped [0x84, 0x10] ({ State.reset.cpu with y := 0x99 })) = some ([(0x10, 0x99)], 0xFF, 0x00) := by decide

/-- TAX of 0: Z. -/
theorem test_tax_zero : lookIndex (stepped [0xAA] ({ State.reset.cpu with x := 5 })) = some (0x00, 0x00, 0xFF, 0x02) := by decide

/-- TAY of $80: N (R137). -/
theorem test_tay_negative : lookIndex (stepped [0xA8] ({ State.reset.cpu with a := 0x80 })) = some (0x00, 0x80, 0xFF, 0x80) := by decide

/-- TXA of $FF: N. -/
theorem test_txa_negative : look (stepped [0x8A] ({ State.reset.cpu with x := 0xFF })) = some (0xFF, 0x80, 0x8001) := by decide

/-- TYA of 0: Z (R139). -/
theorem test_tya_zero : look (stepped [0x98] ({ State.reset.cpu with a := 7 })) = some (0x00, 0x02, 0x8001) := by decide

/-- TSX of $80: N. -/
theorem test_tsx_negative : lookIndex (stepped [0xBA] ({ State.reset.cpu with sp := 0x80 })) = some (0x80, 0x00, 0x80, 0x80) := by decide

/-- TXS of 0 with N set: the flags stay. -/
theorem test_txs_writes_no_flag : lookIndex (stepped [0x9A] (flags 0x80)) = some (0x00, 0x00, 0x00, 0x80) := by decide

/-! ## Arithmetic and logic (95_test_vectors.md 1.5, 1.6, 2.3) -/

/-- $7F + $01: V and N, no C. -/
theorem test_adc_signed_overflow : look (stepped [0x69, 0x01] ({ State.reset.cpu with a := 0x7F })) = some (0x80, 0xC0, 0x8002) := by decide

/-- $FF + $01 under the default `SUM9` (C, Z) and under `MAJORITY` (Z alone) (D1). -/
theorem test_adc_carry_rules :
    look (stepped [0x69, 0x01] { State.reset.cpu with a := 0xFF }) = some (0x00, 0x03, 0x8002)
      ∧ look (steppedWith { Params.default with adcCarryRule := .majority } [0x69, 0x01] { State.reset.cpu with a := 0xFF })
        = some (0x00, 0x02, 0x8002) := by
  decide

/-- $05 - $03 gives $02 whether or not C was set (R151). -/
theorem test_sbc_ignores_carry :
    look (stepped [0xE9, 0x03] { flags 0x00 with a := 0x05 }) = some (0x02, 0x01, 0x8002)
      ∧ look (stepped [0xE9, 0x03] { flags 0x01 with a := 0x05 }) = some (0x02, 0x01, 0x8002) := by
  decide

/-- $00 - $01 under `SUM9` (N) and `MAJORITY` (N, C). -/
theorem test_sbc_carry_rules :
    look (stepped [0xE9, 0x01]) = some (0xFF, 0x80, 0x8002)
      ∧ look (steppedWith { Params.default with adcCarryRule := .majority } [0xE9, 0x01]) = some (0xFF, 0x81, 0x8002) := by
  decide

/-- $F0 AND $0F. -/
theorem test_and_zero : look (stepped [0x29, 0x0F] ({ State.reset.cpu with a := 0xF0 })) = some (0x00, 0x02, 0x8002) := by decide

/-- $01 OR $80. -/
theorem test_ora_negative : look (stepped [0x09, 0x80] ({ State.reset.cpu with a := 0x01 })) = some (0x81, 0x80, 0x8002) := by decide

/-- $FF EOR $FF. -/
theorem test_eor_zero : look (stepped [0x49, 0xFF] ({ State.reset.cpu with a := 0xFF })) = some (0x00, 0x02, 0x8002) := by decide

/-- BIT: Z from A AND M, N and V from M. -/
theorem test_bit_sets : look (stepped [0x24, 0x10] ({ State.reset.cpu with a := 0x01 }) [(0x10, 0xC0)]) = some (0x01, 0xC2, 0x8002) := by decide

/-- BIT clears Z, N, V. -/
theorem test_bit_clears : look (stepped [0x24, 0x10] ({ flags 0xC2 with a := 0xFF }) [(0x10, 0x3F)]) = some (0xFF, 0x00, 0x8002) := by decide

/-- $01 against $FF: no C, bit 7 of $02 is 0. -/
theorem test_cmp_unsigned : look (stepped [0xC9, 0xFF] ({ flags 0x83 with a := 0x01 })) = some (0x01, 0x00, 0x8002) := by decide

/-- $40 against $40. -/
theorem test_cmp_equal : look (stepped [0xC9, 0x40] ({ State.reset.cpu with a := 0x40 })) = some (0x40, 0x03, 0x8002) := by decide

/-- X equal. -/
theorem test_cpx_equal : lookIndex (stepped [0xE0, 0x10] ({ State.reset.cpu with x := 0x10 })) = some (0x10, 0x00, 0xFF, 0x03) := by decide

/-- Y below: N of $F0. -/
theorem test_cpy_below : lookIndex (stepped [0xC0, 0x20] ({ State.reset.cpu with y := 0x10 })) = some (0x00, 0x10, 0xFF, 0x80) := by decide

/-- $FF + 1 is 0 (removed from the canonical list); C stays. -/
theorem test_inc_wraps : lookRam (stepped [0xE6, 0x10] (flags 0x01) [(0x10, 0xFF)]) = some ([], 0xFF, 0x03) := by decide

/-- `INC $9000` reads 0, computes 1, writes nothing. -/
theorem test_inc_rom_write_is_dropped : lookRam (stepped [0xEE, 0x00, 0x90]) = some ([], 0xFF, 0x00) := by decide

/-- 0 - 1 is $FF. -/
theorem test_dec_wraps : lookRam (stepped [0xC6, 0x10]) = some ([(0x10, 0xFF)], 0xFF, 0x80) := by decide

/-- X = $FF. -/
theorem test_inx_wraps : lookIndex (stepped [0xE8] ({ State.reset.cpu with x := 0xFF })) = some (0x00, 0x00, 0xFF, 0x02) := by decide

/-- Y = $7F: N (R162). -/
theorem test_iny : lookIndex (stepped [0xC8] ({ State.reset.cpu with y := 0x7F })) = some (0x00, 0x80, 0xFF, 0x80) := by decide

/-- X = 1: Z (R163). -/
theorem test_dex : lookIndex (stepped [0xCA] ({ State.reset.cpu with x := 0x01 })) = some (0x00, 0x00, 0xFF, 0x02) := by decide

/-- Y = 0: $FF. -/
theorem test_dey_wraps : lookIndex (stepped [0x88]) = some (0x00, 0xFF, 0xFF, 0x80) := by decide

/-! ## Shifts and rotates (95_test_vectors.md 2.4) -/

/-- $80 shifted left. -/
theorem test_asl_out : look (stepped [0x0A] ({ State.reset.cpu with a := 0x80 })) = some (0x00, 0x03, 0x8001) := by decide

/-- $55 in memory. -/
theorem test_asl_memory : lookRam (stepped [0x06, 0x10] (flags 0x01) [(0x10, 0x55)]) = some ([(0x10, 0xAA)], 0xFF, 0x80) := by decide

/-- $01 shifted right. -/
theorem test_lsr_out : look (stepped [0x4A] ({ State.reset.cpu with a := 0x01 })) = some (0x00, 0x03, 0x8001) := by decide

/-- $80 in memory: N ends 0 (R181). -/
theorem test_lsr_clears_n : lookRam (stepped [0x46, 0x10] (flags 0x80) [(0x10, 0x80)]) = some ([(0x10, 0x40)], 0xFF, 0x00) := by decide

/-- Old C enters bit 0. -/
theorem test_rol_carry_in : look (stepped [0x2A] (flags 0x01)) = some (0x01, 0x00, 0x8001) := by decide

/-- Bit 7 leaves into C. -/
theorem test_rol_carry_out : look (stepped [0x2A] ({ State.reset.cpu with a := 0x80 })) = some (0x00, 0x03, 0x8001) := by decide

/-- Old C enters bit 7. -/
theorem test_ror_carry_in : look (stepped [0x6A] (flags 0x01)) = some (0x80, 0x80, 0x8001) := by decide

/-- Bit 0 leaves into C. -/
theorem test_ror_carry_out : look (stepped [0x6A] ({ State.reset.cpu with a := 0x01 })) = some (0x00, 0x03, 0x8001) := by decide

/-! ## Jumps, calls, branches (95_test_vectors.md 2.1, 2.5) -/

/-- The runaway guard halts. -/
theorem test_jmp_out_of_the_window : lookPC (stepped [0x4C, 0x00, 0x03]) = some (0x0300, true) := by decide

/-- `JMP ($02FF)` reads $02FF then $0300. -/
theorem test_jmp_indirect_no_page_wrap : lookPC (stepped [0x6C, 0xFF, 0x02] State.reset.cpu [(0x200, 0x40), (0x300, 0x90)]) = some (0x9000, false) := by decide

/-- The address of the last byte, high byte first. -/
theorem test_jsr_pushes : lookRam (stepped [0x20, 0x00, 0x90]) = some ([(0x1FE, 0x02), (0x1FF, 0x80)], 0xFD, 0x00) := by decide

/-- The popped address plus one. -/
theorem test_rts : lookPC (stepped [0x60] ({ State.reset.cpu with sp := 0xFD }) [(0x1FE, 0x02), (0x1FF, 0x80)]) = some (0x8003, false) := by decide

/-- $FFFF + 1 wraps and halts. -/
theorem test_rts_wraps : lookPC (stepped [0x60] ({ State.reset.cpu with sp := 0xFD }) [(0x1FE, 0xFF), (0x1FF, 0xFF)]) = some (0x0000, true) := by decide

/-- BPL taken and not taken. -/
theorem test_bpl : lookPC (stepped [0x10, 0x05] (flags 0x00)) = some (0x8007, false)
    ∧ lookPC (stepped [0x10, 0x05] (flags 0x80)) = some (0x8002, false) := by decide

/-- BMI taken and not taken. -/
theorem test_bmi : lookPC (stepped [0x30, 0x05] (flags 0x80)) = some (0x8007, false)
    ∧ lookPC (stepped [0x30, 0x05] (flags 0x00)) = some (0x8002, false) := by decide

/-- BVC taken and not taken. -/
theorem test_bvc : lookPC (stepped [0x50, 0x05] (flags 0x00)) = some (0x8007, false)
    ∧ lookPC (stepped [0x50, 0x05] (flags 0x40)) = some (0x8002, false) := by decide

/-- BVS taken and not taken. -/
theorem test_bvs : lookPC (stepped [0x70, 0x05] (flags 0x40)) = some (0x8007, false)
    ∧ lookPC (stepped [0x70, 0x05] (flags 0x00)) = some (0x8002, false) := by decide

/-- BCC taken and not taken. -/
theorem test_bcc : lookPC (stepped [0x90, 0x05] (flags 0x00)) = some (0x8007, false)
    ∧ lookPC (stepped [0x90, 0x05] (flags 0x01)) = some (0x8002, false) := by decide

/-- BCS taken and not taken. -/
theorem test_bcs : lookPC (stepped [0xB0, 0x7F] (flags 0x01)) = some (0x8081, false)
    ∧ lookPC (stepped [0xB0, 0x7F] (flags 0x00)) = some (0x8002, false) := by decide

/-- BNE taken and not taken. -/
theorem test_bne : lookPC (stepped [0xD0, 0xFE] (flags 0x00)) = some (0x8000, false)
    ∧ lookPC (stepped [0xD0, 0xFE] (flags 0x02)) = some (0x8002, false) := by decide

/-- BEQ taken and not taken. -/
theorem test_beq : lookPC (stepped [0xF0, 0x05] (flags 0x02)) = some (0x8007, false)
    ∧ lookPC (stepped [0xF0, 0x05] (flags 0x00)) = some (0x8002, false) := by decide

/-- $8002 - 128. -/
theorem test_bcc_backward_out_of_the_window : lookPC (stepped [0x90, 0x80]) = some (0x7F82, true) := by decide

/-! ## Stack, flags, system (95_test_vectors.md 2.6) -/

/-- SP = 0 wraps to $FF. -/
theorem test_pha_wraps : lookRam (stepped [0x48] ({ State.reset.cpu with a := 0x33, sp := 0x00 })) = some ([(0x100, 0x33)], 0xFF, 0x00) := by decide

/-- SP = $FF wraps to 0; N. -/
theorem test_pla_wraps : look (stepped [0x68] State.reset.cpu [(0x100, 0x80)]) = some (0x80, 0x80, 0x8001) := by decide

/-- C, N, B. -/
theorem test_php : lookRam (stepped [0x08] (flags 0x91)) = some ([(0x1FF, 0x91)], 0xFE, 0x91) := by decide

/-- All six flags set. -/
theorem test_plp_all : lookRam (stepped [0x28] ({ State.reset.cpu with sp := 0xFE }) [(0x1FF, 0xFF)]) = some ([(0x1FF, 0xFF)], 0xFF, 0xD7) := by decide

/-- Bits 3 and 5 are ignored. -/
theorem test_plp_ignores_bits : lookRam (stepped [0x28] ({ flags 0xD7 with sp := 0xFE }) [(0x1FF, 0x28)]) = some ([(0x1FF, 0x28)], 0xFF, 0x00) := by decide

/-- CLC writes one flag. -/
theorem test_clc : look (stepped [0x18] (flags 0xD7)) = some (0x00, 0xD6, 0x8001) := by decide

/-- SEC writes one flag. -/
theorem test_sec : look (stepped [0x38] (flags 0x00)) = some (0x00, 0x01, 0x8001) := by decide

/-- CLI writes one flag. -/
theorem test_cli : look (stepped [0x58] (flags 0xD7)) = some (0x00, 0xD3, 0x8001) := by decide

/-- SEI writes one flag. -/
theorem test_sei : look (stepped [0x78] (flags 0x00)) = some (0x00, 0x04, 0x8001) := by decide

/-- CLV writes one flag. -/
theorem test_clv : look (stepped [0xB8] (flags 0xD7)) = some (0x00, 0x97, 0x8001) := by decide

/-- NOP: nothing but PC and the scheduler. -/
theorem test_nop : nextState (placed [0xEA])
    = some { placed [0xEA] with cpu := { State.reset.cpu with pc := 0x8001 }, ppuOwed := 3 } := by decide

/-- SED: nothing but PC and the scheduler. -/
theorem test_sed : nextState (placed [0xF8])
    = some { placed [0xF8] with cpu := { State.reset.cpu with pc := 0x8001 }, ppuOwed := 3 } := by decide

/-- CLD: nothing but PC and the scheduler. -/
theorem test_cld : nextState (placed [0xD8])
    = some { placed [0xD8] with cpu := { State.reset.cpu with pc := 0x8001 }, ppuOwed := 3 } := by decide

/-- BRK with $FFFE = $9000 pushes $8001 and $10, and sets B and I. -/
theorem test_brk :
    let s := { placed [0x00] with cart := { Cartridge.blank with prg := [(0x3FFF, 0x90)] } }
    (nextState s).map (fun t => (t.ram, t.cpu.sp, t.cpu.pc, t.cpu.p.serialize))
      = some ([(0x1FD, 0x10), (0x1FE, 0x01), (0x1FF, 0x80)], 0xFC, 0x9000, 0x14) := by
  decide

/-- With `BRK_PUSH_OFFSET = 2` the pushed low byte is $02. -/
theorem test_brk_offset_two :
    (steppedWith { Params.default with brkPushOffset := .two } [0x00]).map (fun t => t.ram.read 0x1FE) = some 0x02 := by
  decide

/-- RTI pops $C3, then $34, $92. -/
theorem test_rti :
    (stepped [0x40] { State.reset.cpu with sp := 0xFC } [(0x1FD, 0xC3), (0x1FE, 0x34), (0x1FF, 0x92)]).map
      (fun t => (t.cpu.p.serialize, t.cpu.pc, t.cpu.sp)) = some (0xC3, 0x9234, 0xFF) := by
  decide

/-! ## Unofficial opcodes (95_test_vectors.md 2.7) -/

/-- KIL halts at PC = $8001; with `HALT_OPCODES` empty it is a one-byte no-op. -/
theorem test_kil :
    lookPC (stepped [0x02]) = some (0x8001, true)
      ∧ lookPC (steppedWith { Params.default with haltOpcodes := [] } [0x02]) = some (0x8001, false) := by
  decide

/-- `NOP $2002` (0C) does not read $2002: w stays. -/
theorem test_nop_absolute_reads_nothing :
    (nextState { placed [0x0C, 0x02, 0x20] with ppu := { Ppu.initial with w := true } }).map (fun t => (t.cpu.pc, t.ppu.w))
      = some (0x8003, true) := by
  decide

/-- All 93 no-op bytes skip their own length and change nothing else (R241). -/
theorem test_unofficial_no_ops :
    ((List.range 256).all fun w =>
      let op := BitVec.ofNat 8 w
      !opcodeUnofficial op || kilBytes.contains op ||
        decide (nextState (placed [op]) =
          some { placed [op] with
            cpu := { State.reset.cpu with pc := 0x8000 + BitVec.ofNat 16 (opcodeLength op) }, ppuOwed := 3 })) = true := by
  decide +kernel

/-- All 12 KIL bytes halt (R240). -/
theorem test_kil_bytes :
    (kilBytes.all fun op =>
      decide (nextState (placed [op]) =
        some { placed [op] with cpu := { State.reset.cpu with pc := 0x8001, halted := true }, ppuOwed := 3 })) = true := by
  decide +kernel

/-- An unofficial byte put into `HALT_OPCODES` halts after its opcode byte; an official one in it is not affected (R240; logs 7, 8). -/
theorem test_halt_opcodes :
    lookPC (steppedWith { Params.default with haltOpcodes := [0x0C, 0xA9] } [0x0C, 0x02, 0x20]) = some (0x8001, true)
      ∧ look (steppedWith { Params.default with haltOpcodes := [0x0C, 0xA9] } [0xA9, 0x80]) = some (0x80, 0x80, 0x8002) := by
  decide

/-! ## CPU events (95_test_vectors.md 2.8) -/

/-- NMI entry with C = 1 and $FFFA = $8100. -/
theorem test_nmi :
    let s := { placed [0xEA] with
      cart := { Cartridge.blank with prg := [(0x3FFB, 0x81)] }, cpu := { flags 0x01 with nmiPending := true } }
    (nextState s).map (fun t => (t.ram, t.cpu.sp, t.cpu.pc, t.cpu.p.serialize, t.cpu.nmiPending))
      = some ([(0x1FD, 0x11), (0x1FF, 0x80)], 0xFC, 0x8100, 0x15, false) := by
  decide

/-- NMI to $0000: the pushes stand and the guard halts. -/
theorem test_nmi_to_zero :
    lookPC (stepped [0xEA] { State.reset.cpu with nmiPending := true }) = some (0x0000, true) := by
  decide

/-! ## PPU registers and tick (95_test_vectors.md 1.8, 1.9, 2.9) -/

/-- $2002 with vblank and latch $FF reads $9F and clears w; $200A then reads the same. -/
theorem test_status_register :
    let s := ppuAt { Ppu.initial with vblank := true, latch := 0xFF, w := true }
    let r := cpuRead 0x2002 s
    r.1 = 0x9F ∧ r.2.ppu.w = false ∧ r.2.ppu.vblank = true ∧ (cpuRead 0x200A r.2).1 = 0x9F := by
  decide

/-- $2005 = $7D, then $5E. -/
theorem test_scroll_writes :
    let s := cpuWrite 0x2005 0x7D (placed [])
    s.ppu.t = 0x000F ∧ s.ppu.x = 5 ∧ s.ppu.w = true ∧ (cpuWrite 0x2005 0x5E s).ppu.t = 0x616F := by
  decide

/-- $2006 = $FF with t = $7FFF clears bit 14; $12 then completes t and v. -/
theorem test_address_writes :
    let s := cpuWrite 0x2006 0xFF (ppuAt { Ppu.initial with t := 0x7FFF })
    s.ppu.t = 0x3FFF ∧ s.ppu.v = 0 ∧ (cpuWrite 0x2006 0x12 s).ppu.v = 0x3F12 := by
  decide

/-- $2000 = $03 sets t[11:10]; $80 during vblank signals an NMI only on a 0-to-1 change. -/
theorem test_control_writes :
    (cpuWrite 0x2000 0x03 (placed [])).ppu.t = 0x0C00
      ∧ (cpuWrite 0x2000 0x80 (ppuAt { Ppu.initial with vblank := true })).cpu.nmiPending = true
      ∧ (cpuWrite 0x2000 0x80 (ppuAt { Ppu.initial with vblank := true, ctrl := 0x80 })).cpu.nmiPending = false := by
  decide

/-- $3F10 is $3F00: a $2007 write of $2C there lands in palette[0]. -/
theorem test_data_write :
    let s := cpuWrite 0x2007 0x2C (ppuAt { Ppu.initial with v := 0x3F10 })
    s.palette = [(0, 0x2C)] ∧ s.ppu.v = 0x3F11 := by
  decide

/-- Two buffered reads of $2007: the old buffer, then ciram[0]. -/
theorem test_buffered_reads :
    let s := { ppuAt { Ppu.initial with v := 0x2000 } with
      params := { Params.default with ppudataReadBuffered := true }, ciram := [(0, 0x55)] }
    let r := cpuRead 0x2007 s
    r.1 = 0x00 ∧ (cpuRead 0x2007 r.2).1 = 0x55 := by
  decide

/-- v at the visible-line events: coarse X at 8 (from $001F and $041F), the four cases of the Y increment at 256, the copy at 257. -/
theorem test_scroll_events :
    (ppuTick (ppuAt { Ppu.initial with cycle := 7, v := 0x001F })).ppu.v = 0x0400
      ∧ (ppuTick (ppuAt { Ppu.initial with cycle := 7, v := 0x041F })).ppu.v = 0x0000
      ∧ (ppuTick (ppuAt { Ppu.initial with scanline := 5, cycle := 255 })).ppu.v = 0x1001
      ∧ (ppuTick (ppuAt { Ppu.initial with scanline := 5, cycle := 255, v := 0x7000 })).ppu.v = 0x0021
      ∧ (ppuTick (ppuAt { Ppu.initial with scanline := 5, cycle := 255, v := 0x73A0 })).ppu.v = 0x0801
      ∧ (ppuTick (ppuAt { Ppu.initial with scanline := 5, cycle := 255, v := 0x73E0 })).ppu.v = 0x0001
      ∧ (ppuTick (ppuAt { Ppu.initial with cycle := 256, v := 0x7FFF, t := 0x0415 })).ppu.v = 0x7FF5 := by
  decide

/-- The step to (241, 1) with ctrl[7] set: vblank and the NMI. -/
theorem test_vblank_start :
    let t := ppuTick (ppuAt { Ppu.initial with scanline := 241, ctrl := 0x80 })
    t.ppu.vblank = true ∧ t.cpu.nmiPending = true := by
  decide

/-- (261, 339) on an odd frame: the gate with mask = 0 keeps the dot, otherwise it is passed over. -/
theorem test_skipped_dot :
    let p := { Ppu.initial with scanline := 261, cycle := 339, oddFrame := true }
    (ppuTick { ppuAt p with params := { Params.default with renderingGate := true } }).ppu.cycle = 340
      ∧ ((ppuTick (ppuAt p)).ppu.scanline, (ppuTick (ppuAt p)).ppu.cycle, (ppuTick (ppuAt p)).ppu.oddFrame) = (0, 0, false) := by
  decide

/-- The fetch pipeline's reads at v = $2ABC (nametable $2ABC, attribute $2BEF) with ctrl[4] set: nametable byte 3, fine Y 2, so the pattern
bytes are at $1032 and $103A (R276). -/
theorem test_tile_fetch :
    let s := { ppuAt { Ppu.initial with v := 0x2ABC, ctrl := 0x10 } with
      ciram := [(0x2BC + 0x400, 0x03), (0x3EF + 0x400, 0x44)], chrRam := [(0x1032, 0x55), (0x103A, 0x66)] }
    tileFetch s = { nametableByte := 0x03, attributeByte := 0x44, patternLow := 0x55, patternHigh := 0x66 } := by
  decide

/-! ## Witnesses: states and operands that meet the hypotheses of each statement -/

/-- The state of the witnesses: NOPs at $8000, a byte of ram. -/
def demo : State :=
  { placed [0xEA, 0xEA, 0xEA] with ram := [(0x10, 0x55)] }

/-- `demo` meets the hypothesis of `StoringInstructionsFrame` and of `VideoMemoryMap`'s last clause. -/
theorem witness_sound : demo.Sound where
  cart := ⟨by constructor <;> decide, by intro m h; cases h⟩
  params := ⟨by decide, by decide⟩
  ram := by constructor <;> decide
  ciram := by constructor <;> decide
  palette := by constructor <;> decide
  chrRam := by constructor <;> decide
  chrRamAbsent := by decide
  scanline := by decide
  cycle := by decide
  skippedDot := by decide
  sprite0Hit := by decide
  spriteOverflow := by decide
  readBuffer := by decide

/-- `StepKeepsInvariant`, `StepKeepsConfiguration` and `InterruptDisableMasksNothing`: an invariant state with a next one. -/
theorem witness_StepKeepsInvariant : demo.Inv ∧ ∃ t, step demo = .next t :=
  ⟨⟨witness_sound, by decide⟩, _, rfl⟩

theorem witness_DecodeOfEncode : Instr.wf (.lda (.mem (.izy 0xFF))) = true ∧ Instr.wf (.kil 0xF2) = true := by
  decide

theorem witness_LaunchState : Cartridge.blank.chrRom = none ∧ 0x1FFF < 0x2000 ∧ 0x7FF < 0x800 ∧ 0x1F < 0x20 := by
  decide

/-- Both accepted sizes of each image, a refused one, and the ends of the PRG window. -/
theorem witness_ConstructionChecksAndMapsPrg :
    (List.replicate 16384 (0 : Byte)).length = 16384 ∧ (List.replicate 32768 (0 : Byte)).length = 32768
      ∧ (List.replicate 8192 (0 : Byte)).length = 8192 ∧ ([] : List Byte).length = 0
      ∧ ¬((List.replicate 16383 (0 : Byte)).length = 16384 ∨ (List.replicate 16383 (0 : Byte)).length = 32768)
      ∧ 0x8000 ≤ (0x8000 : Word).toNat ∧ 0x8000 ≤ (0xFFFF : Word).toNat ∧ 0x1FFF < 0x2000 := by
  simp only [List.length_replicate]
  decide

theorem witness_LaunchMeetsInvariant : SoundCartridge Cartridge.blank ∧ SoundParams Params.default :=
  ⟨⟨by constructor <;> decide, by intro m h; cases h⟩, ⟨by decide, by decide⟩⟩

/-- A halted state, its step, and a pending NMI. -/
theorem witness_HaltedCoreDoesNothing :
    let s := { demo with cpu := { demo.cpu with halted := true, nmiPending := true } }
    s.cpu.halted = true ∧ s.cpu.nmiPending = true ∧ ∃ t, step s = .next t :=
  ⟨by decide, by decide, consumeChoice { demo with cpu := { demo.cpu with halted := true, nmiPending := true } }, rfl⟩

/-- A NOP at $8000. -/
theorem witness_StepRunsDecodedInstruction :
    nextAgent demo = .cpu ∧ demo.cpu.halted = false ∧ demo.cpu.nmiPending = false ∧ 0x8000 ≤ demo.cpu.pc.toNat
      ∧ decode [byteAt demo demo.cpu.pc, byteAt demo (demo.cpu.pc + 1), byteAt demo (demo.cpu.pc + 2)]
        = .ok (.nop, [0xEA, 0xEA])
      ∧ ∃ u, exec .nop demo = .next u := by
  have bytes : [byteAt demo demo.cpu.pc, byteAt demo (demo.cpu.pc + 1), byteAt demo (demo.cpu.pc + 2)]
      = ([0xEA, 0xEA, 0xEA] : List Byte) := by decide
  rw [bytes]
  exact ⟨by decide, by decide, by decide, by decide, rfl, _, rfl⟩

/-- A NOP at $FFFF, where the bytes after the opcode wrap to $0000 and $0001. -/
theorem witness_StepRunsDecodedInstruction_at_the_end :
    let s := { placed [] with cart := { Cartridge.blank with prg := [(0x3FFF, 0xEA)] }, cpu := { demo.cpu with pc := 0xFFFF } }
    nextAgent s = .cpu ∧ s.cpu.halted = false ∧ s.cpu.nmiPending = false ∧ 0x8000 ≤ s.cpu.pc.toNat
      ∧ [byteAt s s.cpu.pc, byteAt s (s.cpu.pc + 1), byteAt s (s.cpu.pc + 2)] = [0xEA, 0x00, 0x00] := by
  decide

theorem witness_NmiIsTakenBeforeTheFetch :
    let s := { demo with cpu := { demo.cpu with nmiPending := true } }
    s.cpu.halted = false ∧ s.cpu.nmiPending = true := by
  decide

/-- A queued PPU tick, the reference scheduler's CPU tick, and a PPU tick it owes. -/
theorem witness_HostChoosesTheTickingAgent :
    (∃ t, { demo with schedule := [.ppu, .cpu] }.schedule = .ppu :: [.cpu]
        ∧ tick .ppu { demo with schedule := [.ppu, .cpu] } = .next t)
      ∧ (∃ t, demo.schedule = [] ∧ demo.ppuOwed = 0 ∧ tick .cpu demo = .next t)
      ∧ ∃ t, { demo with ppuOwed := 1 }.schedule = [] ∧ { demo with ppuOwed := 1 }.ppuOwed = 0 + 1
        ∧ tick .ppu { demo with ppuOwed := 1 } = .next t :=
  ⟨⟨_, rfl, rfl⟩, ⟨_, rfl, rfl, rfl⟩, _, rfl, rfl, rfl⟩

/-- The ends of each range of the bus. -/
theorem witness_CpuBusMap :
    (0x1FFF : Word).toNat < 0x2000 ∧ (0x2000 ≤ (0x2000 : Word).toNat ∧ (0x3FFF : Word).toNat < 0x4000)
      ∧ (0x4000 ≤ (0x4000 : Word).toNat ∧ (0x7FFF : Word).toNat < 0x8000) ∧ 0x8000 ≤ (0x8000 : Word).toNat
      ∧ 0x8000 ≤ (0xFFFF : Word).toNat := by
  decide

theorem witness_RamMirrors : demo.ram.wf = true ∧ (0x0000 : Word).toNat < 0x2000 ∧ (0x1FFF : Word).toNat < 0x2000 := by
  decide

theorem witness_StackRoundTrip : demo.ram.wf = true ∧ (List.replicate 256 (0x33 : Byte)).length ≤ 256 := by
  rw [List.length_replicate]
  decide

/-- The ends of the dropped and the unmapped range, and SP at both ends. -/
theorem witness_SilentEffects :
    0x4000 ≤ (0x4000 : Word).toNat ∧ (0x7FFF : Word).toNat < 0x8000 ∧ 0x4000 ≤ (0xFFFF : Word).toNat
      ∧ { demo with cpu := { demo.cpu with sp := 0 } }.cpu.sp = 0 ∧ demo.cpu.sp = 0xFF := by
  decide

/-- The cells at the ends of each range, in both mirrorings and with both kinds of chr, by hand from R70 to R72: $1FFF, $2000, the nametables 1 and 2,
$3EFF (nametable 3 of the mirror), $3F00, $3F10 and $3FFF. -/
theorem test_video_cells :
    let h := Cartridge.blank
    let v := { Cartridge.blank with mirroring := .vertical }
    let rom := { Cartridge.blank with chrRom := some [(0x1FFF, 0x77)] }
    videoCell h 0x1FFF = .chrRam 0x1FFF ∧ videoCell rom 0x1FFF = .chrRom 0x1FFF ∧ videoCell h 0x2000 = .ciram 0
      ∧ videoCell h 0x2400 = .ciram 0 ∧ videoCell v 0x2400 = .ciram 0x400
      ∧ videoCell h 0x2800 = .ciram 0x400 ∧ videoCell v 0x2800 = .ciram 0
      ∧ videoCell h 0x3EFF = .ciram 0x6FF ∧ videoCell v 0x3EFF = .ciram 0x6FF
      ∧ videoCell h 0x3F00 = .palette 0 ∧ videoCell h 0x3F10 = .palette 0 ∧ videoCell h 0x3FFF = .palette 0x1F := by
  decide

/-- The ends of each range, with CHR RAM and CHR ROM. -/
theorem witness_VideoMemoryMap_ranges :
    (0x1FFF < 0x2000 ∧ demo.cart.chrRom = none
        ∧ { demo with cart := { demo.cart with chrRom := some [] } }.cart.chrRom = some [])
      ∧ (0x2000 ≤ 0x2000 ∧ 0x2000 < 0x3F00 ∧ 0x2000 ≤ 0x3EFF ∧ 0x3EFF < 0x3F00)
      ∧ (0x3F00 ≤ 0x3F00 ∧ 0x3F00 < 0x4000 ∧ 0x3F00 ≤ 0x3FFF ∧ 0x3FFF < 0x4000) := by
  decide

/-- The ends of the mirrored ranges, with both mirrorings; `witness_sound` meets the last clause. -/
theorem witness_VideoMemoryMap :
    0x3000 ≤ 0x3000 ∧ 0x3000 < 0x3F00 ∧ 0x3000 ≤ 0x3EFF ∧ 0x3EFF < 0x3F00 ∧ 0x3FF < 0x400 ∧ 3 < 4 ∧ 0xDF < 0xE0 ∧ demo.cart.mirroring = .horizontal
      ∧ { demo with cart := { demo.cart with mirroring := .vertical } }.cart.mirroring = .vertical := by
  decide

theorem witness_WriteOnlyRegistersReadTheLatch :
    ∀ n ∈ [0, 1, 3, 4, 5, 6], n = 0 ∨ n = 1 ∨ n = 3 ∨ n = 4 ∨ n = 5 ∨ n = 6 := by
  decide

theorem witness_StatusRegisterRead :
    (InAperture 0x2002 ∧ InAperture 0x3FFA) ∧ ppuRegister 0x2002 = 2 ∧ ppuRegister 0x3FFA = 2
      ∧ demo.ppu.sprite0Hit = false ∧ demo.ppu.spriteOverflow = false :=
  ⟨⟨⟨by decide, by decide⟩, by decide, by decide⟩, rfl, rfl, rfl, rfl⟩

/-- Both variants, the buffered one at both sides of $3F00. -/
theorem witness_DataRegisterAccess :
    let buffered := fun v : Loopy =>
      { ppuAt { Ppu.initial with v := v } with params := { Params.default with ppudataReadBuffered := true } }
    demo.params.ppudataReadBuffered = false ∧ (buffered 0x3EFF).params.ppudataReadBuffered = true
      ∧ (buffered 0x3EFF).ppu.v.toNat % 0x4000 < 0x3F00 ∧ 0x3F00 ≤ (buffered 0x3F00).ppu.v.toNat % 0x4000 := by
  decide

theorem witness_ControlRegisterWrites : 9 < 10 ∧ 12 ≤ 12 ∧ 14 < 15 := by
  decide

theorem witness_ScrollAndAddressWrites :
    demo.ppu.w = false ∧ (ppuAt { Ppu.initial with w := true }).ppu.w = true := by
  decide

/-- coarse X at 31, coarse Y at 29, 31 and between, fine Y at 7 and below. -/
theorem witness_LoopyRegisterSteps :
    (0x001F : Loopy).toNat % 32 = 31 ∧ (0x73A0 : Loopy).toNat / 32 % 32 = 29 ∧ (0x73E0 : Loopy).toNat / 32 % 32 = 31
      ∧ (0x73A0 : Loopy).toNat / 4096 = 7 ∧ (0x6000 : Loopy).toNat / 4096 < 7 := by
  decide

theorem witness_FrameOfPpuTicks :
    (demo.ppu.scanline = 0 ∧ demo.ppu.cycle = 0 ∧ demo.ppu.oddFrame = false)
      ∧ (ppuAt { Ppu.initial with oddFrame := true }).ppu.oddFrame = true
      ∧ (ppuAt { Ppu.initial with oddFrame := true }).params.renderingGate = false := by
  decide

/-- The dot that is skipped, the same on an even frame, the end of a line and of a frame. -/
theorem witness_PpuCountersAdvance :
    let at_ := fun (line c : Nat) (odd : Bool) => (ppuAt { Ppu.initial with scanline := line, cycle := c, oddFrame := odd }).ppu
    ((at_ 261 339 true).oddFrame = true ∧ (at_ 261 339 true).scanline = 261 ∧ (at_ 261 339 true).cycle = 339)
      ∧ ((at_ 261 339 false).oddFrame = false ∧ (at_ 261 339 false).cycle < 340)
      ∧ ((at_ 260 340 false).cycle = 340 ∧ (at_ 260 340 false).scanline < 261)
      ∧ (at_ 261 340 false).cycle = 340 ∧ (at_ 261 340 false).scanline = 261 := by
  decide

/-- The positions 256, 257, 8 and 248 of a visible line, and 258 and the pre-render line, where v stays. -/
theorem witness_ScrollEventsByPosition :
    let reach := fun (line c : Nat) =>
      let p := (ppuTick (ppuAt { Ppu.initial with scanline := line, cycle := c - 1 })).ppu
      (p.scanline, p.cycle)
    reach 239 256 = (239, 256) ∧ reach 239 257 = (239, 257) ∧ reach 0 8 = (0, 8) ∧ reach 0 248 = (0, 248)
      ∧ reach 0 258 = (0, 258) ∧ reach 261 256 = (261, 256) := by
  decide

/-- The two positions of vblank and one next to each. -/
theorem witness_VblankAndNmiSignal :
    let reach := fun (line c : Nat) =>
      let p := (ppuTick (ppuAt { Ppu.initial with scanline := line, cycle := c - 1 })).ppu
      (p.scanline, p.cycle)
    reach 241 1 = (241, 1) ∧ reach 261 1 = (261, 1) ∧ reach 241 2 = (241, 2) ∧ reach 261 2 = (261, 2) := by
  decide

theorem witness_ReturnFollowsCall : demo.ram.wf = true ∧ ∃ t, exec (.jsr 0x9000) demo = .next t :=
  ⟨by decide, _, rfl⟩

theorem witness_ReturnUndoesEntry : demo.ram.wf = true ∧ ∃ t, exec .brk demo = .next t :=
  ⟨by decide, _, rfl⟩

/-- A KIL byte in `HALT_OPCODES` and an unofficial byte outside it. -/
theorem witness_UnofficialOpcodesComplete :
    (Instr.official (.kil 0x02) = false ∧ Instr.wf (.kil 0x02) = true ∧ Instr.opcode (.kil 0x02) = some 0x02
        ∧ (0x02 : Byte) ∈ demo.params.haltOpcodes)
      ∧ Instr.official (.lax (.imm 0)) = false ∧ Instr.wf (.lax (.imm 0)) = true
        ∧ Instr.opcode (.lax (.imm 0)) = some 0xAB ∧ (0xAB : Byte) ∉ demo.params.haltOpcodes := by
  decide

/-- Each instruction of the frame has a next state, reading in the aperture. -/
theorem witness_ReadingInstructionsFrame :
    (∃ t, exec (.lda (.mem (.abs 0x2002))) demo = .next t) ∧ (∃ t, exec (.ldx (.mem (.abs 0x2002))) demo = .next t)
      ∧ (∃ t, exec (.ldy (.mem (.abs 0x2002))) demo = .next t) ∧ (∃ t, exec (.adc (.mem (.abs 0x2002))) demo = .next t)
      ∧ (∃ t, exec (.sbc (.mem (.abs 0x2002))) demo = .next t) ∧ (∃ t, exec (.and (.mem (.abs 0x2002))) demo = .next t)
      ∧ (∃ t, exec (.ora (.mem (.abs 0x2002))) demo = .next t) ∧ (∃ t, exec (.eor (.mem (.abs 0x2002))) demo = .next t)
      ∧ (∃ t, exec (.cmp (.mem (.abs 0x2002))) demo = .next t) ∧ (∃ t, exec (.cpx (.mem (.abs 0x2002))) demo = .next t)
      ∧ (∃ t, exec (.cpy (.mem (.abs 0x2002))) demo = .next t) ∧ (∃ t, exec (.bit (.abs 0x2002)) demo = .next t)
      ∧ (∃ t, exec (.lda (.imm 0)) demo = .next t) :=
  ⟨⟨_, rfl⟩, ⟨_, rfl⟩, ⟨_, rfl⟩, ⟨_, rfl⟩, ⟨_, rfl⟩, ⟨_, rfl⟩, ⟨_, rfl⟩, ⟨_, rfl⟩, ⟨_, rfl⟩, ⟨_, rfl⟩,
    ⟨_, rfl⟩, ⟨_, rfl⟩, ⟨_, rfl⟩⟩

/-- What the clauses of the frames ask of an address, at the ends of the aperture: registers 0 and 7, a register whose read is quiet, and the addresses
just outside. -/
theorem witness_frame_addresses :
    (InAperture 0x2000 ∧ ppuRegister 0x2000 = 0) ∧ (InAperture 0x3FFF ∧ ppuRegister 0x3FFF = 7)
      ∧ (InAperture 0x2001 ∧ ppuRegister 0x2001 ≠ 2 ∧ ppuRegister 0x2001 ≠ 7)
      ∧ ¬InAperture 0x1FFF ∧ ¬InAperture 0x4000 := by
  unfold InAperture
  decide

/-- A store of $A5 to $2001 writes the mask and the latch, and no other register of the PPU (R290). -/
theorem test_store_to_mask :
    ∃ t, exec (.sta (.abs 0x2001)) { demo with cpu := { demo.cpu with a := 0xA5 } } = .next t
      ∧ t.ppu = { demo.ppu with mask := 0xA5, latch := 0xA5 } :=
  ⟨_, rfl, by decide⟩

/-- Each instruction of the frame has a next state, storing in the aperture; `witness_sound` is the other hypothesis. -/
theorem witness_StoringInstructionsFrame :
    (∃ t, exec (.sta (.abs 0x2007)) demo = .next t) ∧ (∃ t, exec (.stx (.abs 0x2007)) demo = .next t)
      ∧ (∃ t, exec (.sty (.abs 0x2007)) demo = .next t) ∧ (∃ t, exec (.inc (.abs 0x2007)) demo = .next t)
      ∧ (∃ t, exec (.dec (.abs 0x2007)) demo = .next t) ∧ (∃ t, exec (.asl (.mem (.abs 0x2007))) demo = .next t)
      ∧ (∃ t, exec (.lsr (.mem (.abs 0x2007))) demo = .next t) ∧ (∃ t, exec (.rol (.mem (.abs 0x2007))) demo = .next t)
      ∧ (∃ t, exec (.ror (.mem (.abs 0x2007))) demo = .next t) ∧ (∃ t, exec (.sta (.zrp 0x10)) demo = .next t) :=
  ⟨⟨_, rfl⟩, ⟨_, rfl⟩, ⟨_, rfl⟩, ⟨_, rfl⟩, ⟨_, rfl⟩, ⟨_, rfl⟩, ⟨_, rfl⟩, ⟨_, rfl⟩, ⟨_, rfl⟩, ⟨_, rfl⟩⟩

/-- Each instruction of the frame has a next state. -/
theorem witness_RegisterInstructionsFrame :
    (∃ t, exec (.txa) demo = .next t) ∧ (∃ t, exec (.tya) demo = .next t) ∧ (∃ t, exec (.tax) demo = .next t)
      ∧ (∃ t, exec (.tsx) demo = .next t) ∧ (∃ t, exec (.inx) demo = .next t) ∧ (∃ t, exec (.dex) demo = .next t)
      ∧ (∃ t, exec (.tay) demo = .next t) ∧ (∃ t, exec (.iny) demo = .next t) ∧ (∃ t, exec (.dey) demo = .next t)
      ∧ (∃ t, exec (.txs) demo = .next t) ∧ (∃ t, exec (.asl .acc) demo = .next t) ∧ (∃ t, exec (.lsr .acc) demo = .next t)
      ∧ (∃ t, exec (.rol .acc) demo = .next t) ∧ (∃ t, exec (.ror .acc) demo = .next t) ∧ (∃ t, exec (.clc) demo = .next t)
      ∧ (∃ t, exec (.sec) demo = .next t) ∧ (∃ t, exec (.cli) demo = .next t) ∧ (∃ t, exec (.sei) demo = .next t)
      ∧ (∃ t, exec (.clv) demo = .next t) ∧ (∃ t, exec (.nop) demo = .next t) ∧ (∃ t, exec (.sed) demo = .next t)
      ∧ (∃ t, exec (.cld) demo = .next t) ∧ (∃ t, exec (.bpl 0xFE) demo = .next t) ∧ (∃ t, exec (.bmi 0xFE) demo = .next t)
      ∧ (∃ t, exec (.bvc 0xFE) demo = .next t) ∧ (∃ t, exec (.bvs 0xFE) demo = .next t)
      ∧ (∃ t, exec (.bcc 0xFE) demo = .next t) ∧ (∃ t, exec (.bcs 0xFE) demo = .next t)
      ∧ (∃ t, exec (.bne 0xFE) demo = .next t) ∧ (∃ t, exec (.beq 0xFE) demo = .next t) :=
  ⟨⟨_, rfl⟩, ⟨_, rfl⟩, ⟨_, rfl⟩, ⟨_, rfl⟩, ⟨_, rfl⟩, ⟨_, rfl⟩, ⟨_, rfl⟩, ⟨_, rfl⟩, ⟨_, rfl⟩, ⟨_, rfl⟩,
    ⟨_, rfl⟩, ⟨_, rfl⟩, ⟨_, rfl⟩, ⟨_, rfl⟩, ⟨_, rfl⟩, ⟨_, rfl⟩, ⟨_, rfl⟩, ⟨_, rfl⟩, ⟨_, rfl⟩, ⟨_, rfl⟩,
    ⟨_, rfl⟩, ⟨_, rfl⟩, ⟨_, rfl⟩, ⟨_, rfl⟩, ⟨_, rfl⟩, ⟨_, rfl⟩, ⟨_, rfl⟩, ⟨_, rfl⟩, ⟨_, rfl⟩, ⟨_, rfl⟩⟩

/-- Each instruction of the frame has a next state; `witness_RamMirrors` is the other hypothesis. -/
theorem witness_StackInstructionsFrame :
    (∃ t, exec (.pha) demo = .next t) ∧ (∃ t, exec (.php) demo = .next t) ∧ (∃ t, exec (.pla) demo = .next t)
      ∧ (∃ t, exec (.plp) demo = .next t) ∧ (∃ t, exec (.jsr 0x2007) demo = .next t) ∧ (∃ t, exec (.rts) demo = .next t)
      ∧ (∃ t, exec (.brk) demo = .next t) ∧ (∃ t, exec (.rti) demo = .next t)
      ∧ (∃ t, exec (.jmp (.abs 0x9000)) demo = .next t) ∧ (∃ t, exec (.jmp (.ind 0x2002)) demo = .next t) :=
  ⟨⟨_, rfl⟩, ⟨_, rfl⟩, ⟨_, rfl⟩, ⟨_, rfl⟩, ⟨_, rfl⟩, ⟨_, rfl⟩, ⟨_, rfl⟩, ⟨_, rfl⟩, ⟨_, rfl⟩, ⟨_, rfl⟩⟩

/-- The addresses the jumps read: none without the eager read, the target with it, and IND's pointer always. -/
theorem witness_jump_reads :
    let eager := { demo with params := { Params.default with eagerOperandRead := true } }
    eagerReads 0x2007 demo = [] ∧ eagerReads 0x2007 eager = [0x2007]
      ∧ jumpReads (.ind 0x0010) demo = [0x0010, 0x0011] ∧ jumpReads (.ind 0x0010) eager = [0x0010, 0x0011, 0x0055] := by
  decide

end Sys2Proof.Tests
end

/-!
PROOFS. The statements of 00_scope.md: a step always answers, no step changes the session's configuration, and what a PPU tick may touch.
-/

namespace Sys2Proof

/-! ## Decoding is total on three bytes -/

/-- Every instruction has one, two or three bytes (R90, R91). -/
theorem Mode.length_cases (m : Mode) : m.length = 1 ∨ m.length = 2 ∨ m.length = 3 := by
  cases m <;> decide

theorem opcodeLength_cases (op : Byte) : opcodeLength op = 1 ∨ opcodeLength op = 2 ∨ opcodeLength op = 3 :=
  Mode.length_cases _

theorem decode_of_length_one {op : Byte} (rest : List Byte) (h : opcodeLength op = 1) :
    decode (op :: rest) = .ok (decodeFields op 0 0, rest) := by
  rw [decode.eq_def]
  simp only [h]

theorem decode_of_length_two {op : Byte} (b : Byte) (rest : List Byte) (h : opcodeLength op = 2) :
    decode (op :: b :: rest) = .ok (decodeFields op b 0, rest) := by
  rw [decode.eq_def]
  simp only [h]

theorem decode_of_length_three {op : Byte} (lo hi : Byte) (rest : List Byte) (h : opcodeLength op = 3) :
    decode (op :: lo :: hi :: rest) = .ok (decodeFields op lo (hi ++ lo), rest) := by
  rw [decode.eq_def]
  simp only [h]

/-- Three bytes are enough for any opcode, and no byte is illegal (R93). -/
theorem decode_three_bytes (op b1 b2 : Byte) : ∃ i rest, decode [op, b1, b2] = .ok (i, rest) := by
  rcases opcodeLength_cases op with h | h | h
  · exact ⟨_, _, decode_of_length_one _ h⟩
  · exact ⟨_, _, decode_of_length_two _ _ h⟩
  · exact ⟨_, _, decode_of_length_three _ _ _ h⟩

end Sys2Proof

namespace Sys2Proof.Machine

/-! ## What each operation leaves of the session: its configuration and the host's choices (R8, R300) -/

theorem SameSession.refl (s : State) : SameSession s s := ⟨rfl, rfl, rfl, rfl⟩

theorem SameSession.trans {s t u : State} (h : SameSession s t) (h' : SameSession t u) : SameSession s u := by
  obtain ⟨cart, params, schedule, owed⟩ := h
  obtain ⟨cart', params', schedule', owed'⟩ := h'
  exact ⟨cart'.trans cart, params'.trans params, schedule'.trans schedule, owed'.trans owed⟩

/-- Only the PPU's registers changed. -/
theorem SameSession.of_setPpu {s t : State} {p : Ppu} (h : t = s.setPpu p) : SameSession s t :=
  h ▸ SameSession.refl s

/-! A register write leaves the session as it is. -/

@[simp] theorem sameSession_setA (s t : State) (v : Byte) : SameSession s (t.setA v) ↔ SameSession s t := .rfl
@[simp] theorem sameSession_setX (s t : State) (v : Byte) : SameSession s (t.setX v) ↔ SameSession s t := .rfl
@[simp] theorem sameSession_setY (s t : State) (v : Byte) : SameSession s (t.setY v) ↔ SameSession s t := .rfl
@[simp] theorem sameSession_setSP (s t : State) (v : Byte) : SameSession s (t.setSP v) ↔ SameSession s t := .rfl
@[simp] theorem sameSession_setPC (s t : State) (v : Word) : SameSession s (t.setPC v) ↔ SameSession s t := .rfl
@[simp] theorem sameSession_setP (s t : State) (p : Status) : SameSession s (t.setP p) ↔ SameSession s t := .rfl
@[simp] theorem sameSession_setZN (s t : State) (r : Byte) : SameSession s (t.setZN r) ↔ SameSession s t := .rfl
@[simp] theorem sameSession_advance (s t : State) (n : Nat) : SameSession s (t.advance n) ↔ SameSession s t := .rfl

theorem cpuRead_sameSession (a : Word) (s : State) : SameSession s (cpuRead a s).2 :=
  .of_setPpu (cpuRead_state a s)

theorem cpuWrite_sameSession (a : Word) (v : Byte) (s : State) : SameSession s (cpuWrite a v s) :=
  ⟨cpuWrite_cart a v s, cpuWrite_params a v s, cpuWrite_schedule a v s, cpuWrite_ppuOwed a v s⟩

theorem readMem_sameSession (m : MemMode) (s : State) : SameSession s (readMem m s).2 :=
  cpuRead_sameSession _ s

theorem readSource_sameSession (src : Source) (s : State) : SameSession s (readSource src s).2 :=
  .of_setPpu (readSource_state src s)

theorem eagerRead_sameSession (ea : Word) (s : State) : SameSession s (eagerRead ea s) :=
  .of_setPpu (eagerRead_state ea s)

theorem jumpAddress_sameSession (target : JumpTarget) (s : State) : SameSession s (jumpAddress target s).2 :=
  .of_setPpu (jumpAddress_state target s)

theorem storeMem_sameSession (m : MemMode) (v : Byte) (s : State) : SameSession s (storeMem m v s) :=
  (eagerRead_sameSession _ s).trans (cpuWrite_sameSession _ v _)

theorem modifyMem_sameSession (m : MemMode) (f : Byte → Byte) (s : State) : SameSession s (modifyMem m f s).2 :=
  (cpuRead_sameSession _ s).trans (cpuWrite_sameSession _ _ _)

theorem modifyTarget_sameSession (dst : Target) (f : Byte → Byte) (s : State) : SameSession s (modifyTarget dst f s).2 := by
  cases dst with
  | acc => exact .refl s
  | mem m => exact modifyMem_sameSession m f s

theorem branch_sameSession (taken : Bool) (rel : Byte) (s : State) : SameSession s (branch taken rel s) := by
  rw [branch_eq]
  exact .refl s

theorem push_sameSession (v : Byte) (s : State) : SameSession s (push v s) := by
  rw [push_eq]
  exact .refl s

theorem pop_sameSession (s : State) : SameSession s (pop s).2 := by
  rw [pop_eq]
  exact .refl s

theorem popWord_sameSession (s : State) : SameSession s (popWord s).2 := by
  rw [popWord_eq]
  exact .refl s

theorem pushWord_sameSession (w : Word) (s : State) : SameSession s (pushWord w s) := by
  rw [pushWord_eq]
  exact .refl s

theorem enterInterrupt_sameSession (ret : Word) {vector : Word} (b : Bool) (s : State) (h : 0x8000 ≤ vector.toNat)
    (h1 : 0x8000 ≤ (vector + 1).toNat) : SameSession s (enterInterrupt ret vector b s) := by
  rw [enterInterrupt_eq ret vector b s h h1]
  exact .refl s

theorem returnFromInterrupt_sameSession (s : State) : SameSession s (returnFromInterrupt s) := by
  rw [returnFromInterrupt_eq]
  exact .refl s

theorem unofficial_sameSession (i : Instr) (s : State) : SameSession s (unofficial i s) := by
  rcases unofficial_cases i s with h | h <;> rw [h] <;> exact .refl s

theorem runawayGuard_sameSession (s : State) : SameSession s (runawayGuard s) := by
  unfold runawayGuard
  split <;> exact .refl s

theorem nmiEntry_sameSession (s : State) : SameSession s (nmiEntry s) :=
  enterInterrupt_sameSession _ _ (s.setNmiPending false) (by decide) (by decide)

/-- A fetch shows the decoder three bytes, however many it reads (R92). -/
theorem fetch_bytes (s : State) : ∃ op b1 b2, (fetch s).1 = [op, b1, b2] := ⟨_, _, _, rfl⟩

/-- The reads of a fetch stop after the first, the second or the third byte (R92, R254). -/
theorem fetch_sameSession (s : State) : SameSession s (fetch s).2 := by
  have read1 := cpuRead_sameSession s.cpu.pc s
  have read2 := read1.trans (cpuRead_sameSession (s.cpu.pc + 1) _)
  have read3 := read2.trans (cpuRead_sameSession (s.cpu.pc + 2) _)
  simp only [fetch]
  split
  · exact read1
  · split
    · exact read1
    · exact read2
    · exact read3

/-! ## Every meaning, every tick and every step answers -/

/-- Every instruction has a next state in every state, of the same session (R19, R93, R250). The cases are the shapes of the meanings: what reads
an operand, stores, modifies memory, jumps, branches, uses the stack, enters or leaves an interrupt, is unofficial, or touches only registers. -/
theorem exec_answers (i : Instr) (s : State) : ∃ t, exec i s = .next t ∧ SameSession s t := by
  cases i with
  | lda src | ldx src | ldy src | adc src | sbc src | and src | ora src | eor src | cmp src | cpx src | cpy src =>
    exact ⟨_, rfl, by simpa using readSource_sameSession src s⟩
  | bit src => exact ⟨_, rfl, by simpa using readMem_sameSession src s⟩
  | sta dst | stx dst | sty dst => exact ⟨_, rfl, by simpa using storeMem_sameSession dst _ s⟩
  | inc dst | dec dst => exact ⟨_, rfl, by simpa using modifyMem_sameSession dst _ s⟩
  | asl dst | lsr dst | rol dst | ror dst => exact ⟨_, rfl, by simpa using modifyTarget_sameSession dst _ s⟩
  | jmp target => exact ⟨_, rfl, by simpa using (jumpAddress_sameSession target s).trans (eagerRead_sameSession _ _)⟩
  | jsr addr => exact ⟨_, rfl, by simpa using (eagerRead_sameSession addr s).trans (pushWord_sameSession _ _)⟩
  | bpl rel | bmi rel | bvc rel | bvs rel | bcc rel | bcs rel | bne rel | beq rel =>
    exact ⟨_, rfl, branch_sameSession _ rel s⟩
  | brk => exact ⟨_, rfl, enterInterrupt_sameSession _ _ s (by decide) (by decide)⟩
  | kil _ | nopUnofficial _ _ | slo _ | rla _ | sre _ | rra _ | sax _ | lax _ | dcp _ | isc _ | anc _ _ | alr _ | arr _ | xaa _
  | axs _ | ahx _ | tas _ | shy _ | shx _ | las _ | usbc _ => exact ⟨_, rfl, unofficial_sameSession _ s⟩
  | pha | php => exact ⟨_, rfl, by simpa using push_sameSession _ s⟩
  | pla | plp => exact ⟨_, rfl, by simpa using pop_sameSession s⟩
  | rts => exact ⟨_, rfl, by simpa using popWord_sameSession s⟩
  | rti => exact ⟨_, rfl, returnFromInterrupt_sameSession s⟩
  | tax | tay | txa | tya | tsx | txs | inx | iny | dex | dey | clc | sec | cli | sei | clv | nop | sed | cld =>
    exact ⟨_, rfl, by simpa using SameSession.refl s⟩

/-- Fetching, decoding and executing always answers (R254), since the fetch shows the decoder three bytes. -/
theorem runInstruction_answers (s : State) : ∃ t, runInstruction s = .next t ∧ SameSession s t := by
  obtain ⟨op, b1, b2, hbytes⟩ := fetch_bytes s
  obtain ⟨i, rest, hdecode⟩ := decode_three_bytes op b1 b2
  obtain ⟨t, hexec, hsame⟩ := exec_answers i (fetch s).2
  exact ⟨t, by simp only [runInstruction, hbytes, hdecode, hexec], (fetch_sameSession s).trans hsame⟩

theorem cpuTick_answers (s : State) : ∃ t, cpuTick s = .next t ∧ SameSession s t := by
  unfold cpuTick
  split
  · exact ⟨s, rfl, .refl s⟩
  · split
    · exact ⟨_, rfl, (nmiEntry_sameSession s).trans (runawayGuard_sameSession _)⟩
    · obtain ⟨t, hrun, hsame⟩ := runInstruction_answers s
      exact ⟨runawayGuard t, by rw [hrun, guarded], hsame.trans (runawayGuard_sameSession t)⟩

/-- A PPU tick changes only the PPU's registers and the NMI slot (R7, R273, R282). -/
theorem ppuTick_frame (s : State) :
    ppuTick s = { s with ppu := (ppuTick s).ppu, cpu := { s.cpu with nmiPending := (ppuTick s).cpu.nmiPending } } :=
  performEvent_frame (s.setPpu (advanceCounters s))

theorem ppuTick_sameSession (s : State) : SameSession s (ppuTick s) := by
  rw [ppuTick_frame]
  exact .refl s

/-- A tick of either agent has a next state, of the same session (R300). -/
theorem tick_answers (agent : Agent) (s : State) : ∃ t, tick agent s = .next t ∧ SameSession s t := by
  cases agent with
  | cpu => exact cpuTick_answers s
  | ppu => exact ⟨_, rfl, ppuTick_sameSession s⟩

/-- A step is the tick of the next agent, which answers, and then the host's record of it (R300, R301). -/
theorem step_eq_consumeChoice (s : State) :
    ∃ t, tick (nextAgent s) s = .next t ∧ SameSession s t ∧ step s = .next (consumeChoice t) := by
  obtain ⟨t, htick, hsame⟩ := tick_answers (nextAgent s) s
  exact ⟨t, htick, hsame, by rw [step, systemStep, htick, consumed]⟩

/-- Settles O10: the next state is the host's record of a tick, and a tick of either agent answers. -/
theorem stepAlwaysAnswers : Obligations.StepAlwaysAnswers := by
  intro s
  obtain ⟨t, _, _, hstep⟩ := step_eq_consumeChoice s
  exact ⟨consumeChoice t, hstep⟩

/-! ## The configuration -/

/-- The host's record of a tick changes only the host's choices (R300, R301). -/
theorem consumeChoice_frame (s : State) :
    consumeChoice s = { s with schedule := (consumeChoice s).schedule, ppuOwed := (consumeChoice s).ppuOwed } := by
  unfold consumeChoice
  split <;> rfl

@[simp] theorem consumeChoice_cart (s : State) : (consumeChoice s).cart = s.cart := by rw [consumeChoice_frame]
@[simp] theorem consumeChoice_params (s : State) : (consumeChoice s).params = s.params := by rw [consumeChoice_frame]

/-- Settles O11: a tick keeps the session, and recording it changes only the host's choices. -/
theorem stepKeepsConfiguration : Obligations.StepKeepsConfiguration := by
  intro s u hu
  obtain ⟨t, _, ⟨cart, params, _, _⟩, hstep⟩ := step_eq_consumeChoice s
  obtain rfl : consumeChoice t = u := Host.Outcome.next.inj (hstep.symm.trans hu)
  exact ⟨(consumeChoice_cart t).trans cart, (consumeChoice_params t).trans params⟩

/-! ## The frame of a PPU tick -/

/-- Of its own registers, a PPU tick changes only the counters, v and the three status bits (R271, R273). -/
theorem ppuTick_ppu (s : State) :
    (ppuTick s).ppu = { s.ppu with
      scanline := (ppuTick s).ppu.scanline, cycle := (ppuTick s).ppu.cycle, oddFrame := (ppuTick s).ppu.oddFrame
      v := (ppuTick s).ppu.v, vblank := (ppuTick s).ppu.vblank, sprite0Hit := (ppuTick s).ppu.sprite0Hit
      spriteOverflow := (ppuTick s).ppu.spriteOverflow } := by
  obtain ⟨scanline, cycle, oddFrame⟩ := ppuTick_position s
  have counters := advanceCounters_frame s
  rw [← scanline, ← cycle, ← oddFrame] at counters
  have event : (ppuTick s).ppu = { advanceCounters s with
      v := (ppuTick s).ppu.v, vblank := (ppuTick s).ppu.vblank
      sprite0Hit := (ppuTick s).ppu.sprite0Hit, spriteOverflow := (ppuTick s).ppu.spriteOverflow } :=
    performEvent_ppu (s.setPpu (advanceCounters s))
  rw [counters] at event
  exact event

/-- A PPU tick sets the NMI slot exactly where vblank starts with ctrl[7] = 1, and never clears it (R36, R280, R282). -/
theorem ppuTick_nmiPending (s : State) :
    (ppuTick s).cpu.nmiPending =
      (s.cpu.nmiPending || (decide ((ppuTick s).ppu.scanline = 241 ∧ (ppuTick s).ppu.cycle = 1) && s.ppu.ctrl.getLsbD 7)) := by
  obtain ⟨scanline, cycle, _⟩ := ppuTick_position s
  rw [scanline, cycle]
  rcases ppuTick_cases s with ⟨visible, _, e⟩ | ⟨line, dot, e⟩ | ⟨line, _, e⟩ | ⟨_, noStart, _, e⟩ <;> rw [e]
  · have noStart : ¬((advanceCounters s).scanline = 241 ∧ (advanceCounters s).cycle = 1) := by omega
    simp [noStart]
  · simp [line, dot]
  · simp [line]
  · simp [noStart]

/-- Settles O13, by the event's frame, the counters' frame and the cases of a PPU tick. -/
theorem ppuTickFrame : Obligations.PpuTickFrame :=
  fun s => ⟨ppuTick_frame s, ppuTick_ppu s, ppuTick_nmiPending s⟩

end Sys2Proof.Machine

/-!
PROOFS. The statements of 10_state.md: the invariant of a session, its construction, the stack and the status byte, the P.I flag, and the frames
of the instructions.
-/

namespace Sys2Proof.Machine

/-! ## What keeps a session sound (R38, R39) -/

/-- `Sound` does not look at the CPU. -/
theorem sound_cpu_iff (s : State) (c : Cpu) : State.Sound { s with cpu := c } ↔ s.Sound :=
  ⟨fun h => h.of_cpu s.cpu rfl, fun h => h.of_cpu c rfl⟩

@[simp] theorem sound_setA (s : State) (v : Byte) : (s.setA v).Sound ↔ s.Sound := sound_cpu_iff s _
@[simp] theorem sound_setX (s : State) (v : Byte) : (s.setX v).Sound ↔ s.Sound := sound_cpu_iff s _
@[simp] theorem sound_setY (s : State) (v : Byte) : (s.setY v).Sound ↔ s.Sound := sound_cpu_iff s _
@[simp] theorem sound_setSP (s : State) (v : Byte) : (s.setSP v).Sound ↔ s.Sound := sound_cpu_iff s _
@[simp] theorem sound_setPC (s : State) (v : Word) : (s.setPC v).Sound ↔ s.Sound := sound_cpu_iff s _
@[simp] theorem sound_setP (s : State) (p : Status) : (s.setP p).Sound ↔ s.Sound := sound_cpu_iff s _
@[simp] theorem sound_setZN (s : State) (r : Byte) : (s.setZN r).Sound ↔ s.Sound := sound_cpu_iff s _
@[simp] theorem sound_advance (s : State) (n : Nat) : (s.advance n).Sound ↔ s.Sound := sound_cpu_iff s _
@[simp] theorem sound_halt (s : State) : s.halt.Sound ↔ s.Sound := sound_cpu_iff s _
@[simp] theorem sound_setNmiPending (s : State) (b : Bool) : (s.setNmiPending b).Sound ↔ s.Sound := sound_cpu_iff s _

theorem State.Sound.readSource {s : State} (h : s.Sound) (src : Source) : (readSource src s).2.Sound := by
  cases src with
  | imm b => exact h
  | mem m => exact h.cpuRead _

theorem State.Sound.readMem {s : State} (h : s.Sound) (m : MemMode) : (readMem m s).2.Sound :=
  h.cpuRead _

theorem State.Sound.eagerRead {s : State} (h : s.Sound) (ea : Word) : (eagerRead ea s).Sound := by
  unfold Machine.eagerRead
  split
  · exact h.cpuRead ea
  · exact h

theorem State.Sound.memRead16 {s : State} (h : s.Sound) (a : Word) : (memRead16 a s).2.Sound :=
  (h.cpuRead a).cpuRead (a + 1)

theorem State.Sound.jumpAddress {s : State} (h : s.Sound) (target : JumpTarget) : (jumpAddress target s).2.Sound := by
  cases target with
  | abs addr => exact h
  | ind ptr => exact h.memRead16 ptr

theorem State.Sound.storeMem {s : State} (h : s.Sound) (m : MemMode) (v : Byte) : (storeMem m v s).Sound :=
  (h.eagerRead _).cpuWrite _ v

theorem State.Sound.modifyMem {s : State} (h : s.Sound) (m : MemMode) (f : Byte → Byte) : (modifyMem m f s).2.Sound :=
  (h.cpuRead _).cpuWrite _ _

theorem State.Sound.modifyTarget {s : State} (h : s.Sound) (dst : Target) (f : Byte → Byte) :
    (modifyTarget dst f s).2.Sound := by
  cases dst with
  | acc => exact (sound_setA s _).mpr h
  | mem m => exact h.modifyMem m f

theorem State.Sound.pushWord {s : State} (h : s.Sound) (w : Word) : (pushWord w s).Sound :=
  (h.push _).push _

theorem State.Sound.pop {s : State} (h : s.Sound) : (pop s).2.Sound :=
  (sound_setSP s _).mpr h

theorem State.Sound.popWord {s : State} (h : s.Sound) : (popWord s).2.Sound :=
  h.pop.pop

theorem State.Sound.branch {s : State} (h : s.Sound) (taken : Bool) (rel : Byte) : (branch taken rel s).Sound := by
  rw [branch_eq]
  exact (sound_setPC s _).mpr h

/-- Entering a handler pushes three bytes and reads the vector (R220, R260). -/
theorem State.Sound.enterInterrupt {s : State} (h : s.Sound) (ret vector : Word) (b : Bool) :
    (enterInterrupt ret vector b s).Sound := by
  have pushed := (sound_setP _ { (Machine.pushWord ret s).cpu.p with b := b }).mpr (h.pushWord ret)
  simpa [Machine.enterInterrupt] using (pushed.push _).memRead16 vector

theorem State.Sound.returnFromInterrupt {s : State} (h : s.Sound) : (returnFromInterrupt s).Sound := by
  rw [returnFromInterrupt_eq]
  exact (sound_cpu_iff s _).mpr h

theorem State.Sound.unofficial {s : State} (h : s.Sound) (i : Instr) : (unofficial i s).Sound := by
  rcases unofficial_cases i s with e | e <;> rw [e] <;> simpa using h

theorem State.Sound.runawayGuard {s : State} (h : s.Sound) : (runawayGuard s).Sound := by
  unfold Machine.runawayGuard
  split
  · exact (sound_halt s).mpr h
  · exact h

theorem State.Sound.nmiEntry {s : State} (h : s.Sound) : (nmiEntry s).Sound :=
  ((sound_setNmiPending s false).mpr h).enterInterrupt _ _ _

/-- The reads of a fetch stop after the first, the second or the third byte (R92, R254). -/
theorem State.Sound.fetch {s : State} (h : s.Sound) : (fetch s).2.Sound := by
  have read1 := h.cpuRead s.cpu.pc
  have read2 := read1.cpuRead (s.cpu.pc + 1)
  have read3 := read2.cpuRead (s.cpu.pc + 2)
  simp only [Machine.fetch]
  split
  · exact read1
  · split
    · exact read1
    · exact read2
    · exact read3

/-- Every instruction keeps a session sound, by the operation its meaning is made of. -/
theorem exec_answers_sound (i : Instr) {s : State} (h : s.Sound) : ∃ t, exec i s = .next t ∧ t.Sound := by
  cases i with
  | lda src | ldx src | ldy src | adc src | sbc src | and src | ora src | eor src | cmp src | cpx src | cpy src =>
    exact ⟨_, rfl, by simpa using h.readSource src⟩
  | bit src => exact ⟨_, rfl, by simpa using h.readMem src⟩
  | sta dst | stx dst | sty dst => exact ⟨_, rfl, by simpa using h.storeMem dst _⟩
  | inc dst | dec dst => exact ⟨_, rfl, by simpa using h.modifyMem dst _⟩
  | asl dst | lsr dst | rol dst | ror dst => exact ⟨_, rfl, by simpa using h.modifyTarget dst _⟩
  | jmp target => exact ⟨_, rfl, by simpa using (h.jumpAddress target).eagerRead _⟩
  | jsr addr => exact ⟨_, rfl, by simpa using (h.eagerRead addr).pushWord _⟩
  | bpl rel | bmi rel | bvc rel | bvs rel | bcc rel | bcs rel | bne rel | beq rel => exact ⟨_, rfl, h.branch _ rel⟩
  | brk => exact ⟨_, rfl, h.enterInterrupt _ _ _⟩
  | kil _ | nopUnofficial _ _ | slo _ | rla _ | sre _ | rra _ | sax _ | lax _ | dcp _ | isc _ | anc _ _ | alr _ | arr _ | xaa _
  | axs _ | ahx _ | tas _ | shy _ | shx _ | las _ | usbc _ => exact ⟨_, rfl, h.unofficial _⟩
  | pha | php => exact ⟨_, rfl, by simpa using h.push _⟩
  | pla | plp => exact ⟨_, rfl, by simpa using h.pop⟩
  | rts => exact ⟨_, rfl, by simpa using h.popWord⟩
  | rti => exact ⟨_, rfl, h.returnFromInterrupt⟩
  | tax | tay | txa | tya | tsx | txs | inx | iny | dex | dey | clc | sec | cli | sei | clv | nop | sed | cld =>
    exact ⟨_, rfl, by simpa using h⟩

/-- Fetching, decoding and executing keeps a session sound (R254). -/
theorem State.Sound.runInstruction {s t : State} (h : s.Sound) (e : runInstruction s = .next t) : t.Sound := by
  obtain ⟨op, b1, b2, hbytes⟩ := fetch_bytes s
  obtain ⟨i, rest, hdecode⟩ := decode_three_bytes op b1 b2
  obtain ⟨u, hexec, hu⟩ := exec_answers_sound i h.fetch
  simp only [Machine.runInstruction, hbytes, hdecode, hexec] at e
  obtain rfl := Host.Outcome.next.inj e
  exact hu

/-! ## A PPU tick keeps a session sound (R271, R272, R283) -/

/-- Passing over a dot ends an odd frame early (R272). -/
theorem skippedCycle_cases (s : State) :
    skippedCycle s = s.ppu.cycle ∧ ¬(s.ppu.scanline = 261 ∧ s.ppu.cycle = 339 ∧ s.ppu.oddFrame = true ∧ renderingActive s = true)
      ∨ advanceCounters s = { s.ppu with cycle := 0, scanline := 0, oddFrame := !s.ppu.oddFrame } := by
  by_cases skip : s.ppu.scanline = 261 ∧ s.ppu.cycle = 339 ∧ s.ppu.oddFrame = true ∧ renderingActive s = true
  · have passed : skippedCycle s = 340 := if_pos skip
    exact .inr (by simp [advanceCounters, passed, skip.1])
  · exact .inl ⟨if_neg skip, skip⟩

/-- The counters stay in range, and the dot an odd frame passes over is not reached (R38, R271, R272). -/
theorem advanceCounters_inRange {s : State} (h : s.Sound) :
    (advanceCounters s).scanline < 262 ∧ (advanceCounters s).cycle < 341
      ∧ (s.params.renderingGate = false → (advanceCounters s).oddFrame = true →
          ¬((advanceCounters s).scanline = 261 ∧ (advanceCounters s).cycle = 340)) := by
  rcases skippedCycle_cases s with ⟨same, noSkip⟩ | e
  · have scanline := h.scanline
    have cycle := h.cycle
    rw [advanceCounters_noSkip same]
    split
    · split
      · simp
      · simp only; omega
    · refine ⟨scanline, by simp only; omega, fun gate odd reached => ?_⟩
      obtain ⟨line, dot⟩ := reached
      exact noSkip ⟨line, by simpa using dot, odd, (renderingActive_iff s).mpr (.inl gate)⟩
  · simp [e]

theorem State.Sound.advanceCounters {s : State} (h : s.Sound) : (s.setPpu (advanceCounters s)).Sound := by
  obtain ⟨scanline, cycle, skippedDot⟩ := advanceCounters_inRange h
  have frame := advanceCounters_frame s
  exact { h with
    scanline := scanline, cycle := cycle, skippedDot := skippedDot
    sprite0Hit := by rw [State.setPpu_ppu, frame]; exact h.sprite0Hit
    spriteOverflow := by rw [State.setPpu_ppu, frame]; exact h.spriteOverflow
    readBuffer := by rw [State.setPpu_ppu, frame]; exact h.readBuffer }

/-- A PPU tick moves the counters, and its event sets none of the sprite flags (R273, R281, R283). -/
theorem State.Sound.ppuTick {s : State} (h : s.Sound) : (ppuTick s).Sound := by
  have moved := h.advanceCounters
  rcases ppuTick_cases s with ⟨_, _, e⟩ | ⟨_, _, e⟩ | ⟨_, _, e⟩ | ⟨_, _, _, e⟩ <;> rw [e]
  · exact moved.of_same rfl rfl rfl rfl rfl rfl rfl moved.sprite0Hit moved.spriteOverflow moved.readBuffer
  · exact moved.of_same rfl rfl rfl rfl rfl rfl rfl moved.sprite0Hit moved.spriteOverflow moved.readBuffer
  · exact moved.of_same rfl rfl rfl rfl rfl rfl rfl rfl rfl moved.readBuffer
  · exact moved

/-! ## The invariant of a session -/

/-- After the runaway guard a core that still runs stands in the PRG window (R252). -/
theorem runawayGuard_window (s : State) (running : (runawayGuard s).cpu.halted = false) :
    0x8000 ≤ (runawayGuard s).cpu.pc.toNat := by
  unfold runawayGuard at running ⊢
  split at running
  · cases running
  · rw [if_neg ‹_›]
    omega

theorem State.Sound.inv_runawayGuard {s : State} (h : s.Sound) : (Machine.runawayGuard s).Inv :=
  ⟨h.runawayGuard, runawayGuard_window s⟩

/-- A CPU tick of a halted core changes nothing; every other one ends with the runaway guard (R252, R254). -/
theorem State.Inv.cpuTick {s t : State} (h : s.Inv) (e : cpuTick s = .next t) : t.Inv := by
  unfold Machine.cpuTick at e
  split at e
  · obtain rfl := Host.Outcome.next.inj e
    exact h
  · split at e
    · obtain rfl := Host.Outcome.next.inj e
      exact h.sound.nmiEntry.inv_runawayGuard
    · obtain ⟨u, hrun, _⟩ := runInstruction_answers s
      rw [hrun] at e
      obtain rfl := Host.Outcome.next.inj e
      exact (h.sound.runInstruction hrun).inv_runawayGuard

/-- A PPU tick moves neither PC nor the halted flag (R7). -/
theorem State.Inv.ppuTick {s : State} (h : s.Inv) : (ppuTick s).Inv :=
  ⟨h.sound.ppuTick, by rw [ppuTick_frame]; exact h.window⟩

theorem State.Inv.tick {s t : State} (h : s.Inv) {agent : Agent} (e : tick agent s = .next t) : t.Inv := by
  cases agent with
  | cpu => exact h.cpuTick e
  | ppu =>
    obtain rfl := Host.Outcome.next.inj e
    exact h.ppuTick

/-- The host's record is not part of the invariant (R300). -/
theorem State.Inv.consumeChoice {s : State} (h : s.Inv) : (consumeChoice s).Inv := by
  rw [consumeChoice_frame]
  exact ⟨h.sound.of_same rfl rfl rfl rfl rfl rfl rfl h.sound.sprite0Hit h.sound.spriteOverflow h.sound.readBuffer, h.window⟩

/-- Settles O9: a tick of either agent keeps the invariant, and so does the host's record of it. -/
theorem stepKeepsInvariant : Obligations.StepKeepsInvariant := by
  intro s u h hu
  obtain ⟨t, htick, _, hstep⟩ := step_eq_consumeChoice s
  obtain rfl : consumeChoice t = u := Host.Outcome.next.inj (hstep.symm.trans hu)
  exact (h.tick htick).consumeChoice

/-! ## Session construction -/

theorem Canonical.nil (n : Nat) : Canonical n [] := ⟨rfl, rfl⟩

/-- A launched memory lists no index outside it, however long the list of its bytes (R42). -/
theorem Canonical.ofBytes_take (n : Nat) (bytes : List Byte) : Canonical n (Memory.ofBytes 0 (bytes.take n)) :=
  ⟨Memory.ofBytes_wf _ _, Memory.ofBytes_below (by rw [Nat.zero_add, List.length_take]; exact Nat.min_le_left _ _)⟩

/-- Settles O8: every launched memory is canonical, the PPU's fields are 0, and PC is $8000. -/
theorem launchMeetsInvariant : Obligations.LaunchMeetsInvariant := fun cart params l hcart hparams =>
  { window := fun _ => show 0x8000 ≤ (0x8000 : Word).toNat by decide
    sound :=
      { cart := hcart, params := hparams
        ram := .ofBytes_take _ _, ciram := .ofBytes_take _ _, palette := .ofBytes_take _ _
        chrRam := by
          unfold State.launch
          split
          · exact .nil _
          · exact .ofBytes_take _ _
        chrRamAbsent := fun rom => if_pos rom
        scanline := show 0 < 262 by decide, cycle := show 0 < 341 by decide, skippedDot := fun _ odd => by cases odd
        sprite0Hit := rfl, spriteOverflow := rfl, readBuffer := fun _ => rfl } }

theorem soundCartridge_blank : SoundCartridge Cartridge.blank :=
  ⟨.nil _, fun _ rom => by cases rom⟩

/-- The twelve KIL bytes are unofficial (R240). -/
theorem soundParams_default : SoundParams Params.default :=
  ⟨by decide, by decide⟩

/-- Settles O7: the reset state is a session construction from a sound cartridge and parameters. -/
theorem resetMeetsInvariant : Obligations.ResetMeetsInvariant :=
  launchMeetsInvariant _ _ _ soundCartridge_blank soundParams_default

/-- A launched memory shows the bytes it was launched with. -/
theorem read_ofBytes_take {n k : Nat} (bytes : List Byte) (hk : k < n) :
    (Memory.ofBytes 0 (bytes.take n)).read k = bytes.getD k 0 := by
  have h := Memory.read_ofBytes 0 (bytes.take n) k
  rw [Nat.zero_add] at h
  rw [h, List.getD_eq_getElem?_getD, List.getElem?_take_of_lt hk, List.getD_eq_getElem?_getD]
  rfl

/-- Settles O5: the fields are as constructed, and the memories read as the launched bytes. -/
theorem launchState : Obligations.LaunchState := by
  intro cart params l
  refine ⟨rfl, rfl, rfl, rfl, fun k hk => read_ofBytes_take l.ram hk, fun k hk => read_ofBytes_take l.ciram hk,
    fun k hk => read_ofBytes_take l.palette hk, fun noRom k hk => ?_⟩
  simp only [State.launch, noRom, Option.isSome_none, if_neg Bool.false_ne_true]
  exact read_ofBytes_take l.chrRam hk

/-! ## The stack and the status byte -/

/-- Settles O20: the stack pointer steps mod 256. -/
theorem pushAndPop : Obligations.PushAndPop := by
  intro s v
  have down : s.cpu.sp - 1 = BitVec.ofNat 8 (s.cpu.sp.toNat + 255) := by bv_omega
  have up : s.cpu.sp + 1 = BitVec.ofNat 8 (s.cpu.sp.toNat + 1) := by bv_omega
  have index : stackIndex (s.cpu.sp + 1) = 0x100 + (s.cpu.sp.toNat + 1) % 256 := by
    simp only [stackIndex, up, BitVec.toNat_ofNat]
  rw [push_eq, pop_eq, index, down, up]
  exact ⟨rfl, rfl⟩

/-- Each flag of the status byte has its own bit, and bits 3 and 5 are 0 (R29; D15). -/
theorem toNat_serialize (p : Status) :
    p.serialize.toNat = p.c.toNat + 2 * p.z.toNat + 4 * p.i.toNat + 16 * p.b.toNat + 64 * p.v.toNat + 128 * p.n.toNat := by
  obtain ⟨c, z, i, b, v, n⟩ := p
  revert c z i b v n
  decide

theorem deserialize_serialize (p : Status) : Status.deserialize p.serialize = p := by
  obtain ⟨c, z, i, b, v, n⟩ := p
  revert c z i b v n
  decide

theorem serialize_deserialize : ∀ v : Byte, (Status.deserialize v).serialize = v &&& 0xD7 := by
  decide

/-- Settles O22, by the layout of the status byte and its two round trips. -/
theorem statusByteRoundTrip : Obligations.StatusByteRoundTrip :=
  ⟨fun p => ⟨toNat_serialize p, deserialize_serialize p⟩, serialize_deserialize⟩

/-! ## P.I and the operations (R25) -/

/-- The same state with P.I set to `b`. -/
def State.withI (b : Bool) (s : State) : State :=
  s.setP { s.cpu.p with i := b }

@[simp] theorem State.withI_ppu (b : Bool) (s : State) : (s.withI b).ppu = s.ppu := rfl
@[simp] theorem State.withI_cart (b : Bool) (s : State) : (s.withI b).cart = s.cart := rfl

theorem readStatus_withI (s : State) (b : Bool) : readStatus (s.withI b) = ((readStatus s).1, (readStatus s).2.withI b) := by
  simp only [readStatus, State.withI_ppu]
  rfl

theorem videoRead_withI (s : State) (a : Nat) (b : Bool) : videoRead (s.withI b) a = videoRead s a := rfl

theorem readData_withI (s : State) (b : Bool) : readData (s.withI b) = ((readData s).1, (readData s).2.withI b) := by
  have params : (s.withI b).params = s.params := rfl
  simp only [readData, dataFetch, State.withI_ppu, videoRead_withI, params]
  rfl

theorem ppuRegRead_withI (n : Nat) (s : State) (b : Bool) :
    ppuRegRead n (s.withI b) = ((ppuRegRead n s).1, (ppuRegRead n s).2.withI b) := by
  unfold ppuRegRead
  split
  · exact readStatus_withI s b
  · exact readData_withI s b
  · rfl

theorem cpuRead_withI (a : Word) (s : State) (b : Bool) :
    cpuRead a (s.withI b) = ((cpuRead a s).1, (cpuRead a s).2.withI b) := by
  unfold cpuRead
  split
  · rfl
  · split
    · exact ppuRegRead_withI _ s b
    · split <;> rfl

theorem videoWrite_withI (s : State) (a : Nat) (d : Byte) (b : Bool) :
    videoWrite (s.withI b) a d = (videoWrite s a d).withI b := by
  unfold videoWrite
  rw [State.withI_cart]
  split <;> rfl

theorem writeControl_withI (d : Byte) (s : State) (b : Bool) : writeControl d (s.withI b) = (writeControl d s).withI b := by
  simp only [writeControl, State.withI_ppu, apply_ite (State.withI b)]
  rfl

theorem writeScroll_withI (d : Byte) (s : State) (b : Bool) : writeScroll d (s.withI b) = (writeScroll d s).withI b := by
  simp only [writeScroll, State.withI_ppu, apply_ite (State.withI b)]
  rfl

theorem writeAddress_withI (d : Byte) (s : State) (b : Bool) : writeAddress d (s.withI b) = (writeAddress d s).withI b := by
  simp only [writeAddress, State.withI_ppu, apply_ite (State.withI b)]
  rfl

theorem writeData_withI (d : Byte) (s : State) (b : Bool) : writeData d (s.withI b) = (writeData d s).withI b := by
  simp only [writeData, State.withI_ppu, videoWrite_withI]
  rfl

theorem ppuRegWrite_withI (n : Nat) (d : Byte) (s : State) (b : Bool) :
    ppuRegWrite n d (s.withI b) = (ppuRegWrite n d s).withI b := by
  have latched : (s.withI b).setPpu { (s.withI b).ppu with latch := d } = (s.setPpu { s.ppu with latch := d }).withI b := rfl
  unfold ppuRegWrite ppuRegEffect
  rw [latched]
  split
  · exact writeControl_withI _ _ b
  · rfl
  · rfl
  · exact writeScroll_withI _ _ b
  · exact writeAddress_withI _ _ b
  · exact writeData_withI _ _ b
  · rfl

theorem cpuWrite_withI (a : Word) (v : Byte) (s : State) (b : Bool) :
    cpuWrite a v (s.withI b) = (cpuWrite a v s).withI b := by
  unfold cpuWrite
  split
  · rfl
  · split
    · exact ppuRegWrite_withI _ v s b
    · rfl

theorem effectiveAddress_withI (m : MemMode) (s : State) (b : Bool) :
    effectiveAddress m (s.withI b) = effectiveAddress m s := by
  cases m with
  | zrp zp | zpx zp | zpy zp => rfl
  | abs addr | abx addr | aby addr => rfl
  | izx zp | izy zp =>
    simp only [effectiveAddress, zeroPagePointer_ram]
    rfl

theorem readMem_withI (m : MemMode) (s : State) (b : Bool) :
    readMem m (s.withI b) = ((readMem m s).1, (readMem m s).2.withI b) := by
  simp only [readMem, effectiveAddress_withI, cpuRead_withI]

theorem readSource_withI (src : Source) (s : State) (b : Bool) :
    readSource src (s.withI b) = ((readSource src s).1, (readSource src s).2.withI b) := by
  cases src with
  | imm v => rfl
  | mem m => exact readMem_withI m s b

theorem eagerRead_withI (ea : Word) (s : State) (b : Bool) : eagerRead ea (s.withI b) = (eagerRead ea s).withI b := by
  simp only [eagerRead, cpuRead_withI, apply_ite (State.withI b)]
  rfl

theorem storeMem_withI (m : MemMode) (v : Byte) (s : State) (b : Bool) :
    storeMem m v (s.withI b) = (storeMem m v s).withI b := by
  simp only [storeMem, effectiveAddress_withI, eagerRead_withI, cpuWrite_withI]

theorem modifyMem_withI (m : MemMode) (f : Byte → Byte) (s : State) (b : Bool) :
    modifyMem m f (s.withI b) = ((modifyMem m f s).1, (modifyMem m f s).2.withI b) := by
  simp only [modifyMem, readMem_withI, effectiveAddress_withI, cpuWrite_withI]

theorem modifyTarget_withI (dst : Target) (f : Byte → Byte) (s : State) (b : Bool) :
    modifyTarget dst f (s.withI b) = ((modifyTarget dst f s).1, (modifyTarget dst f s).2.withI b) := by
  cases dst with
  | acc => rfl
  | mem m => exact modifyMem_withI m f s b

theorem memRead16_withI (a : Word) (s : State) (b : Bool) :
    memRead16 a (s.withI b) = ((memRead16 a s).1, (memRead16 a s).2.withI b) := by
  simp only [memRead16, cpuRead_withI]

theorem jumpAddress_withI (target : JumpTarget) (s : State) (b : Bool) :
    jumpAddress target (s.withI b) = ((jumpAddress target s).1, (jumpAddress target s).2.withI b) := by
  cases target with
  | abs addr => rfl
  | ind ptr => exact memRead16_withI ptr s b

theorem branch_withI (taken : Bool) (rel : Byte) (s : State) (b : Bool) :
    branch taken rel (s.withI b) = (branch taken rel s).withI b := by
  simp only [branch_eq]
  rfl

theorem unofficial_withI (i : Instr) (s : State) (b : Bool) : unofficial i (s.withI b) = (unofficial i s).withI b := by
  unfold unofficial
  split
  · rw [apply_ite (State.withI b)]
    rfl
  · rfl

/-- The fetch does not look at P: it reads the same bytes, and stops after the same one (R92). -/
theorem fetch_withI (s : State) (b : Bool) : fetch (s.withI b) = ((fetch s).1, (fetch s).2.withI b) := by
  have pc : (s.withI b).cpu.pc = s.cpu.pc := rfl
  have halts : ∀ op, haltsOn (s.withI b) op = haltsOn s op := fun _ => rfl
  simp only [fetch, cpuRead_withI, pc, halts, apply_ite (State.withI b)]
  split
  · rfl
  · split <;> rfl

/-! ## Two runs that differ in P.I (R25, R255) -/

/-- `u` is `t` but for P.I, and for the ram cell that may hold a status byte pushed from it. -/
def SameButI (t u : State) : Prop :=
  ∃ ram b, u = (t.setRam ram).withI b

theorem SameButI.refl (t : State) : SameButI t t := ⟨t.ram, t.cpu.p.i, rfl⟩

theorem SameButI.of_withI {t u : State} {b : Bool} (h : u = t.withI b) : SameButI t u := ⟨t.ram, b, h⟩

/-- BRK and NMI entry push P.I and then set it, so that only the pushed byte tells (R220, R260). -/
theorem enterInterrupt_sameButI (ret : Word) {vector : Word} (brk : Bool) (s : State) (b : Bool) (h : 0x8000 ≤ vector.toNat)
    (h1 : 0x8000 ≤ (vector + 1).toNat) :
    SameButI (enterInterrupt ret vector brk s) (enterInterrupt ret vector brk (s.withI b)) := by
  rw [enterInterrupt_eq ret vector brk s h h1, enterInterrupt_eq ret vector brk (s.withI b) h h1]
  exact ⟨_, true, rfl⟩

/-- An instruction that starts from a state with another P.I ends in a state that differs in P.I at most, but for the byte PHP and BRK
push. PLP and RTI take P.I from the stack, CLI and SEI set it, and no other instruction looks at it. -/
theorem exec_withI (i : Instr) (s : State) (b : Bool) :
    ∃ t u, exec i s = .next t ∧ exec i (s.withI b) = .next u ∧ SameButI t u := by
  cases i with
  | lda src | ldx src | ldy src | adc src | sbc src | and src | ora src | eor src | cmp src | cpx src | cpy src =>
    exact ⟨_, _, rfl, rfl, .of_withI (b := b) (by simp only [readSource_withI]; rfl)⟩
  | bit src => exact ⟨_, _, rfl, rfl, .of_withI (b := b) (by simp only [readMem_withI]; rfl)⟩
  | sta dst | stx dst | sty dst => exact ⟨_, _, rfl, rfl, .of_withI (b := b) (by simp only [storeMem_withI]; rfl)⟩
  | inc dst | dec dst => exact ⟨_, _, rfl, rfl, .of_withI (b := b) (by simp only [modifyMem_withI]; rfl)⟩
  | asl dst | lsr dst | rol dst | ror dst => exact ⟨_, _, rfl, rfl, .of_withI (b := b) (by simp only [modifyTarget_withI]; rfl)⟩
  | jmp target => exact ⟨_, _, rfl, rfl, .of_withI (b := b) (by simp only [jumpAddress_withI, eagerRead_withI]; rfl)⟩
  | jsr addr => exact ⟨_, _, rfl, rfl, .of_withI (b := b) (by simp only [eagerRead_withI]; rfl)⟩
  | bpl rel | bmi rel | bvc rel | bvs rel | bcc rel | bcs rel | bne rel | beq rel =>
    exact ⟨_, _, rfl, rfl, .of_withI (branch_withI _ rel s b)⟩
  | brk => exact ⟨_, _, rfl, rfl, enterInterrupt_sameButI _ _ s b (by decide) (by decide)⟩
  | kil _ | nopUnofficial _ _ | slo _ | rla _ | sre _ | rra _ | sax _ | lax _ | dcp _ | isc _ | anc _ _ | alr _ | arr _ | xaa _
  | axs _ | ahx _ | tas _ | shy _ | shx _ | las _ | usbc _ => exact ⟨_, _, rfl, rfl, .of_withI (unofficial_withI _ s b)⟩
  | php => exact ⟨_, _, rfl, rfl, _, b, rfl⟩
  | plp | cli | sei | rti => exact ⟨_, _, rfl, rfl, .refl _⟩
  | pha | pla | rts => exact ⟨_, _, rfl, rfl, .of_withI (b := b) rfl⟩
  | tax | tay | txa | tya | tsx | txs | inx | iny | dex | dey | clc | sec | clv | nop | sed | cld =>
    exact ⟨_, _, rfl, rfl, .of_withI (b := b) rfl⟩

theorem SameButI.runawayGuard {t u : State} (h : SameButI t u) : SameButI (runawayGuard t) (runawayGuard u) := by
  obtain ⟨ram, b, rfl⟩ := h
  refine ⟨ram, b, ?_⟩
  simp only [Machine.runawayGuard, apply_ite (fun v : State => (v.setRam ram).withI b)]
  rfl

theorem SameButI.consumeChoice {t u : State} (h : SameButI t u) : SameButI (consumeChoice t) (consumeChoice u) := by
  obtain ⟨ram, b, rfl⟩ := h
  have schedule : ((t.setRam ram).withI b).schedule = t.schedule := rfl
  refine ⟨ram, b, ?_⟩
  unfold Machine.consumeChoice
  rw [schedule]
  split <;> rfl

theorem runInstruction_withI (s : State) (b : Bool) :
    ∃ t u, runInstruction s = .next t ∧ runInstruction (s.withI b) = .next u ∧ SameButI t u := by
  obtain ⟨op, b1, b2, hbytes⟩ := fetch_bytes s
  obtain ⟨i, rest, hdecode⟩ := decode_three_bytes op b1 b2
  obtain ⟨t, u, ht, hu, h⟩ := exec_withI i (fetch s).2 b
  refine ⟨t, u, ?_, ?_, h⟩
  · simp only [runInstruction, hbytes, hdecode, ht]
  · simp only [runInstruction, fetch_withI, hbytes, hdecode, hu]

/-- Whether the core is halted and whether an NMI is pending decide a CPU tick's course; P.I does not (R254, R255, R257). -/
theorem cpuTick_withI (s : State) (b : Bool) :
    ∃ t u, cpuTick s = .next t ∧ cpuTick (s.withI b) = .next u ∧ SameButI t u := by
  have halted : (s.withI b).cpu.halted = s.cpu.halted := rfl
  have pending : (s.withI b).cpu.nmiPending = s.cpu.nmiPending := rfl
  simp only [cpuTick, halted, pending]
  split
  · exact ⟨_, _, rfl, rfl, .of_withI rfl⟩
  · split
    · have entered := enterInterrupt_sameButI s.cpu.pc (vector := nmiVector) s.params.nmiPushesBreak (s.setNmiPending false) b
        (by decide) (by decide)
      exact ⟨_, _, rfl, rfl, entered.runawayGuard⟩
    · obtain ⟨t, u, ht, hu, h⟩ := runInstruction_withI s b
      exact ⟨_, _, by rw [ht, guarded], by rw [hu, guarded], h.runawayGuard⟩

theorem startVblank_withI (s : State) (b : Bool) : startVblank (s.withI b) = (startVblank s).withI b := by
  simp only [startVblank, State.withI_ppu, apply_ite (State.withI b)]
  rfl

theorem performEvent_withI (s : State) (b : Bool) : performEvent (s.withI b) = (performEvent s).withI b := by
  have active : renderingActive (s.withI b) = renderingActive s := rfl
  simp only [performEvent, State.withI_ppu, active, startVblank_withI, apply_ite (State.withI b)]
  rfl

/-- A PPU tick does not look at the CPU (R7). -/
theorem ppuTick_withI (s : State) (b : Bool) : ppuTick (s.withI b) = (ppuTick s).withI b :=
  performEvent_withI (s.setPpu (advanceCounters s)) b

theorem tick_withI (agent : Agent) (s : State) (b : Bool) :
    ∃ t u, tick agent s = .next t ∧ tick agent (s.withI b) = .next u ∧ SameButI t u := by
  cases agent with
  | cpu => exact cpuTick_withI s b
  | ppu => exact ⟨_, _, rfl, rfl, .of_withI (ppuTick_withI s b)⟩

/-- Settles O14: the same agent ticks, and its tick and the host's record of it keep the two states alike. -/
theorem interruptDisableMasksNothing : Obligations.InterruptDisableMasksNothing := by
  intro s t b ht
  obtain ⟨v, u, hv, hu, h⟩ := tick_withI (nextAgent s) s b
  obtain rfl : consumeChoice v = t := Host.Outcome.next.inj (by rw [← ht, step, systemStep, hv, consumed])
  have hstep : step (s.withI b) = .next (consumeChoice u) := by
    rw [step, systemStep, show nextAgent (s.withI b) = nextAgent s from rfl, hu, consumed]
  obtain ⟨ram, c, e⟩ := h.consumeChoice
  refine ⟨_, hstep, ?_⟩
  rw [e]
  exact ⟨rfl, rfl, rfl, rfl, rfl⟩

/-! ## What a frame rests on -/

/-- The CPU bus outside the aperture shows ram, the image and nothing else (R52, R54, R55). -/
theorem byteAt_outside {b : Word} (s : State) (outside : ¬InAperture b) :
    byteAt s b =
      if b.toNat < 0x2000 then s.ram.read (ramIndex b)
      else if b.toNat < 0x8000 then 0
      else s.cart.prg.read (prgIndex s.cart b) := by
  unfold InAperture at outside
  unfold byteAt cpuRead
  split
  · rfl
  · rw [if_neg (by omega)]
    split <;> rfl

theorem byteAt_congr {s t : State} {b : Word} (outside : ¬InAperture b) (cart : t.cart = s.cart)
    (ram : b.toNat < 0x2000 → t.ram.read (ramIndex b) = s.ram.read (ramIndex b)) : byteAt t b = byteAt s b := by
  rw [byteAt_outside t outside, byteAt_outside s outside, cart]
  split
  · exact ram ‹_›
  · rfl

/-- An instruction that leaves ram alone leaves the bus outside the aperture alone. -/
theorem SameBus.of_ram {s t : State} (cart : t.cart = s.cart) (ram : t.ram = s.ram) : SameBus s t :=
  fun _ outside => byteAt_congr outside cart fun _ => by rw [ram]

/-- VideoMemory is the configuration's CHR ROM and the three memories (R69 to R72). -/
theorem SameVideo.of_memories {s t : State} (cart : t.cart = s.cart) (ciram : t.ciram = s.ciram) (palette : t.palette = s.palette)
    (chrRam : t.chrRam = s.chrRam) : SameVideo s t := by
  intro a
  simp only [videoRead, cart, ciram, palette, chrRam]

/-! ## What reads change of the PPU (R57, R288, R289, R294) -/

/-- Nothing was read that changes the PPU. -/
theorem PpuReadFrame.of_ppu {addrs : List Word} {s t : State} (h : t.ppu = s.ppu) : PpuReadFrame addrs s t :=
  ⟨by rw [h], fun _ => h⟩

/-- Reads one after another. -/
theorem PpuReadFrame.trans {as bs : List Word} {s t u : State} (h : PpuReadFrame as s t) (h' : PpuReadFrame bs t u) :
    PpuReadFrame (as ++ bs) s u := by
  obtain ⟨kept, quiet⟩ := h
  obtain ⟨kept', quiet'⟩ := h'
  refine ⟨?_, fun hq => ?_⟩
  · rw [kept] at kept'
    exact kept'
  · exact (quiet' fun a ha => hq a (List.mem_append_right as ha)).trans (quiet fun a ha => hq a (List.mem_append_left bs ha))

/-- Of the state after a read frame, only the PPU's registers matter. -/
theorem PpuReadFrame.of_same_ppu {addrs : List Word} {s t u : State} (h : PpuReadFrame addrs s t) (e : u.ppu = t.ppu) :
    PpuReadFrame addrs s u := by
  simp only [PpuReadFrame, e]
  exact h

theorem cpuRead_ppuReadFrame (a : Word) (s : State) : PpuReadFrame [a] s (cpuRead a s).2 := by
  refine ⟨cpuRead_ppu a s, fun hq => ?_⟩
  rw [cpuRead_quiet s fun lo hi => hq a List.mem_cons_self ⟨lo, hi⟩]

theorem readSource_ppuReadFrame (src : Source) (s : State) : PpuReadFrame (sourceReads src s) s (readSource src s).2 := by
  cases src with
  | imm b => exact .of_ppu rfl
  | mem m => exact cpuRead_ppuReadFrame _ s

theorem eagerRead_ppuReadFrame (ea : Word) (s : State) : PpuReadFrame (eagerReads ea s) s (eagerRead ea s) := by
  unfold eagerReads eagerRead
  split
  · exact cpuRead_ppuReadFrame ea s
  · exact .of_ppu rfl

/-- No read moves the counters or vblank (R289, R294). -/
theorem PpuReadFrame.counters {addrs : List Word} {s t : State} (h : PpuReadFrame addrs s t) :
    t.ppu.scanline = s.ppu.scanline ∧ t.ppu.cycle = s.ppu.cycle ∧ t.ppu.oddFrame = s.ppu.oddFrame
      ∧ t.ppu.vblank = s.ppu.vblank := by
  obtain ⟨kept, _⟩ := h
  rw [kept]
  exact ⟨rfl, rfl, rfl, rfl⟩

/-! ## Frames of the instructions that read an operand -/

/-- Reading an operand gives a byte and changes the PPU's registers; whatever the instruction then does to the CPU is in its
frame. -/
theorem readSource_cases (src : Source) (s : State) :
    ∃ v q, readSource src s = (v, s.setPpu q)
      ∧ ∀ t : State, t = { s with ppu := q, cpu := t.cpu } → ReadFrame (sourceReads src s) s t := by
  refine ⟨_, _, Prod.ext rfl (readSource_state src s), fun t ht => ?_⟩
  rw [ht]
  exact ⟨.refl s, .of_ram rfl rfl, .of_memories rfl rfl rfl rfl, (readSource_ppuReadFrame src s).of_same_ppu rfl⟩

/-- Settles O57: after its one read, each instruction writes its destination, the flags and PC. -/
theorem readingInstructionsFrame : Obligations.ReadingInstructionsFrame := by
  intro src m s t
  obtain ⟨v, q, hr, frame⟩ := readSource_cases src s
  obtain ⟨v', q', hm, frame'⟩ := readSource_cases (.mem m) s
  simp only [readSource] at hm
  simp only [exec, execLda, execLdx, execLdy, execAdc, execSbc, execAnd, execOra, execEor, execCmp, execCpx, execCpy, execBit, hr,
    hm, Host.Outcome.next.injEq]
  -- The frame holds whatever the adder gives.
  generalize addCore s.params.adcCarryRule s.cpu.a v s.cpu.p.c = sum
  generalize addCore s.params.adcCarryRule s.cpu.a (255 - v) true = difference
  refine ⟨?_, ?_, ?_, ?_, ?_, ?_, ?_, ?_, ?_, ?_, ?_, ?bit⟩
  case bit =>
    rintro rfl
    exact ⟨rfl, rfl, frame' _ rfl⟩
  all_goals
    rintro rfl
    exact ⟨rfl, rfl, frame _ rfl⟩

/-! ## Frames of the instructions that store at their effective address -/

/-- Only register 7 reaches VideoMemory (R290, R294). -/
theorem ppuRegWrite_sameVideo {n : Nat} (d : Byte) (s : State) (h : n ≠ 7) : SameVideo s (ppuRegWrite n d s) := by
  unfold ppuRegWrite ppuRegEffect
  split
  · unfold writeControl
    split <;> exact .of_memories rfl rfl rfl rfl
  · exact .of_memories rfl rfl rfl rfl
  · exact .of_memories rfl rfl rfl rfl
  · unfold writeScroll
    split <;> exact .of_memories rfl rfl rfl rfl
  · unfold writeAddress
    split <;> exact .of_memories rfl rfl rfl rfl
  · exact absurd rfl h
  · exact .of_memories rfl rfl rfl rfl

/-- Register 7 writes the cell v names, and no other (R294). -/
theorem ppuRegWrite_data_other {s : State} (h : s.Sound) (d : Byte) {c : Nat}
    (other : videoCell s.cart c ≠ videoCell s.cart s.ppu.v.toNat) :
    videoRead (ppuRegWrite 7 d s) c = videoRead s c :=
  videoRead_videoWrite_other (s := s.setPpu { s.ppu with latch := d }) h.ciram.1 h.palette.1 h.chrRam.1 other

/-- Only register 0 reaches the NMI slot (R293). -/
theorem ppuRegWrite_nmiPending {n : Nat} (d : Byte) (s : State) (h : n ≠ 0) :
    (ppuRegWrite n d s).cpu.nmiPending = s.cpu.nmiPending := by
  unfold ppuRegWrite ppuRegEffect
  split
  · exact absurd rfl h
  · rfl
  · rfl
  · unfold writeScroll
    split <;> rfl
  · unfold writeAddress
    split <;> rfl
  · unfold writeData
    rw [videoWrite_frame]
    rfl
  · rfl

/-! The three ranges of a bus write (R56). -/

theorem cpuWrite_ram {a : Word} (v : Byte) (s : State) (h : a.toNat < 0x2000) :
    cpuWrite a v s = s.setRam (s.ram.write (ramIndex a) v) := if_pos h

theorem cpuWrite_aperture {a : Word} (v : Byte) (s : State) (h : InAperture a) :
    cpuWrite a v s = ppuRegWrite (ppuRegister a) v s := by
  unfold InAperture at h
  rw [cpuWrite, if_neg (by omega), if_pos (by omega)]

theorem cpuWrite_dropped {a : Word} (v : Byte) (s : State) (h : 0x4000 ≤ a.toNat) : cpuWrite a v s = s := by
  rw [cpuWrite, if_neg (by omega), if_neg (by omega)]

/-- A store outside the aperture leaves the PPU, VideoMemory and the NMI slot alone. -/
theorem StoreFrame.of_outside {ea : Word} {v : Byte} {u s t : State} (outside : ¬InAperture ea) (session : SameSession s t)
    (bus : ∀ b, ¬InAperture b → ¬(ea.toNat < 0x2000 ∧ b.toNat < 0x2000 ∧ ramIndex b = ramIndex ea) → byteAt t b = byteAt s b)
    (video : SameVideo s t) (ppu : t.ppu = s.ppu) (nmi : t.cpu.nmiPending = s.cpu.nmiPending) : StoreFrame ea v u s t :=
  ⟨session, bus, fun _ => video, fun port => absurd port.1 outside, fun _ => ppu, fun inside => absurd inside outside,
    by simp only [ppu, and_self], fun _ => nmi⟩

/-- A store below $2000 changes one ram cell (R52). -/
theorem storeFrame_ram {ea : Word} {v : Byte} {u s : State} (wf : s.ram.wf = true) (h : ea.toNat < 0x2000) {c : Cpu}
    (nmi : c.nmiPending = s.cpu.nmiPending) :
    StoreFrame ea v u s { s with ram := s.ram.write (ramIndex ea) v, cpu := c } := by
  refine .of_outside (fun inside => ?_) (.refl s) (fun b outside other => ?_) (.of_memories rfl rfl rfl rfl) rfl nmi
  · unfold InAperture at inside
    omega
  · exact byteAt_congr outside rfl fun hb => by rw [Memory.read_write wf, if_neg fun same => other ⟨h, hb, same⟩]

/-- A store from $4000 up changes nothing (R56). -/
theorem storeFrame_dropped {ea : Word} {v : Byte} {u s : State} (h : 0x4000 ≤ ea.toNat) {c : Cpu}
    (nmi : c.nmiPending = s.cpu.nmiPending) : StoreFrame ea v u s { s with cpu := c } := by
  refine .of_outside (fun inside => ?_) (.refl s) (fun b outside _ => byteAt_congr outside rfl fun _ => rfl)
    (.of_memories rfl rfl rfl rfl) rfl nmi
  unfold InAperture at inside
  omega

theorem ppuRegWrite_counters (n : Nat) (d : Byte) (s : State) :
    (ppuRegWrite n d s).ppu.scanline = s.ppu.scanline ∧ (ppuRegWrite n d s).ppu.cycle = s.ppu.cycle
      ∧ (ppuRegWrite n d s).ppu.oddFrame = s.ppu.oddFrame ∧ (ppuRegWrite n d s).ppu.vblank = s.ppu.vblank := by
  rw [ppuRegWrite_ppu]
  exact ⟨rfl, rfl, rfl, rfl⟩

/-- A store into the aperture is a register write of the byte stored (R53, R290). -/
theorem storeFrame_aperture {ea : Word} {v : Byte} {s : State} {q : Ppu} (sound : (s.setPpu q).Sound) (inside : InAperture ea)
    (read : PpuReadFrame [ea] s (s.setPpu q)) {c : Cpu}
    (nmi : c.nmiPending = (ppuRegWrite (ppuRegister ea) v (s.setPpu q)).cpu.nmiPending) :
    StoreFrame ea v (s.setPpu q) s { ppuRegWrite (ppuRegister ea) v (s.setPpu q) with cpu := c } := by
  have session := cpuWrite_sameSession ea v (s.setPpu q)
  rw [cpuWrite_aperture v _ inside] at session
  refine ⟨session, fun b outside _ => byteAt_congr outside session.1 fun _ => ?ram, fun port => ?video,
    fun port cell other => ?cell, fun outside => absurd inside outside, fun _ => ⟨rfl, nmi⟩, ?counters, fun port => ?slot⟩
  case ram => rw [ppuRegWrite_frame]; rfl
  case video => exact ppuRegWrite_sameVideo v (s.setPpu q) fun data => port ⟨inside, data⟩
  case cell =>
    rw [port.2]
    exact ppuRegWrite_data_other sound v other
  case counters =>
    obtain ⟨scanline, cycle, oddFrame, vblank⟩ := ppuRegWrite_counters (ppuRegister ea) v (s.setPpu q)
    obtain ⟨scanline', cycle', oddFrame', vblank'⟩ := read.counters
    exact ⟨scanline.trans scanline', cycle.trans cycle', oddFrame.trans oddFrame', vblank.trans vblank'⟩
  case slot => exact nmi.trans (ppuRegWrite_nmiPending v (s.setPpu q) fun control => port ⟨inside, control⟩)

/-- The frame of a bus write at `ea`, which may follow a read of `ea` (R66, R103), by the three ranges of the bus. The instruction may
then change the CPU's registers, but not the NMI slot. -/
theorem cpuWrite_storeFrame {ea : Word} {v : Byte} {s u t : State} (sound : s.Sound) (read : u = s ∨ u = (cpuRead ea s).2)
    (e : t = { cpuWrite ea v u with cpu := t.cpu }) (nmi : t.cpu.nmiPending = (cpuWrite ea v u).cpu.nmiPending) :
    StoreFrame ea v u s t := by
  generalize t.cpu = c at e nmi
  subst e
  by_cases inside : InAperture ea
  · rw [cpuWrite_aperture v u inside] at nmi ⊢
    rcases read with rfl | rfl
    · exact storeFrame_aperture (q := u.ppu) sound inside (.of_ppu rfl) nmi
    · have sound' := sound.cpuRead ea
      have read := cpuRead_ppuReadFrame ea s
      rw [cpuRead_state] at nmi sound' read ⊢
      exact storeFrame_aperture sound' inside read nmi
  · have outside : ea.toNat < 0x2000 ∨ 0x4000 ≤ ea.toNat := by
      unfold InAperture at inside
      omega
    obtain rfl : u = s := read.elim id fun h => h.trans (cpuRead_outside s outside)
    rcases outside with low | high
    · rw [cpuWrite_ram v u low] at nmi ⊢
      exact storeFrame_ram sound.ram.1 low nmi
    · rw [cpuWrite_dropped v u high] at nmi ⊢
      exact storeFrame_dropped high nmi

/-- A bus write changes none of the CPU's registers, only the NMI slot (R56, R293). -/
theorem cpuWrite_cpu (a : Word) (v : Byte) (s : State) :
    (cpuWrite a v s).cpu = { s.cpu with nmiPending := (cpuWrite a v s).cpu.nmiPending } := by
  rw [cpuWrite_frame]

/-- The frame of STA, STX and STY: the eager read, if there is one, and the store. -/
theorem storeMem_advance_frame {s t : State} (sound : s.Sound) {m : MemMode} {v : Byte} {n : Nat}
    (e : (storeMem m v s).advance n = t) :
    t.cpu = { s.cpu with pc := t.cpu.pc, nmiPending := t.cpu.nmiPending }
      ∧ StoreFrame (effectiveAddress m s) v (eagerRead (effectiveAddress m s) s) s t := by
  subst e
  refine ⟨?_, cpuWrite_storeFrame sound ?_ rfl rfl⟩
  · have cpu := cpuWrite_cpu (effectiveAddress m s) v (eagerRead (effectiveAddress m s) s)
    rw [eagerRead_cpu] at cpu
    simp only [storeMem, State.advance, State.setPC]
    rw [cpu]
  · unfold eagerRead
    split
    · exact .inr rfl
    · exact .inl rfl

/-- The frame of a read-modify-write: one read, one store, and the flags (R66; D8). -/
theorem modifyMem_advance_frame {s t : State} (sound : s.Sound) {m : MemMode} {f : Byte → Byte} {p : Status} {n : Nat}
    (e : ((modifyMem m f s).2.setP p).advance n = t) :
    t.cpu = { s.cpu with p := p, pc := t.cpu.pc, nmiPending := t.cpu.nmiPending }
      ∧ StoreFrame (effectiveAddress m s) (f (cpuRead (effectiveAddress m s) s).1) (cpuRead (effectiveAddress m s) s).2 s t := by
  subst e
  refine ⟨?_, cpuWrite_storeFrame sound (.inr rfl) rfl rfl⟩
  have cpu := cpuWrite_cpu (effectiveAddress m s) (f (cpuRead (effectiveAddress m s) s).1) (cpuRead (effectiveAddress m s) s).2
  rw [cpuRead_cpu] at cpu
  simp only [modifyMem_eq, State.advance, State.setPC, State.setP]
  rw [cpu]

theorem modifyMem_cpu_p (m : MemMode) (f : Byte → Byte) (s : State) : (modifyMem m f s).2.cpu.p = s.cpu.p := by
  rw [modifyMem_eq, cpuWrite_p, cpuRead_cpu]

/-- INC and DEC: the result `r` sets Z and N (R159, R160). -/
theorem modifyMem_setZN_frame {s t : State} (sound : s.Sound) {m : MemMode} {f : Byte → Byte} {r v : Byte} {n : Nat}
    (e : ((modifyMem m f s).2.setZN r).advance n = t) (hv : v = f (cpuRead (effectiveAddress m s) s).1) :
    t.cpu = { s.cpu with p := t.cpu.p, pc := t.cpu.pc, nmiPending := t.cpu.nmiPending }
      ∧ t.cpu.p = { s.cpu.p with z := t.cpu.p.z, n := t.cpu.p.n }
      ∧ StoreFrame (effectiveAddress m s) v (cpuRead (effectiveAddress m s) s).2 s t := by
  obtain ⟨cpu, frame⟩ := modifyMem_advance_frame sound e
  rw [modifyMem_cpu_p] at cpu
  exact ⟨by rw [cpu], by rw [cpu]; rfl, hv ▸ frame⟩

/-- The shifts on memory: the result `r` and the bit shifted out set Z, N and C (R180 to R183). -/
theorem modifyMem_withShift_frame {s t : State} (sound : s.Sound) {m : MemMode} {f : Byte → Byte} {out : Bool} {r v : Byte}
    {n : Nat}
    (e : ((modifyMem m f s).2.setP ((modifyMem m f s).2.cpu.p.withShift out r)).advance n = t)
    (hv : v = f (cpuRead (effectiveAddress m s) s).1) :
    t.cpu = { s.cpu with p := t.cpu.p, pc := t.cpu.pc, nmiPending := t.cpu.nmiPending }
      ∧ t.cpu.p = { s.cpu.p with c := t.cpu.p.c, z := t.cpu.p.z, n := t.cpu.p.n }
      ∧ StoreFrame (effectiveAddress m s) v (cpuRead (effectiveAddress m s) s).2 s t := by
  obtain ⟨cpu, frame⟩ := modifyMem_advance_frame sound e
  rw [modifyMem_cpu_p] at cpu
  exact ⟨by rw [cpu], by rw [cpu]; rfl, hv ▸ frame⟩

/-- Settles O58, by the frame of a store, of INC and DEC, and of a shift on memory. -/
theorem storingInstructionsFrame : Obligations.StoringInstructionsFrame := by
  intro m s t sound
  have plusOne : ∀ b : Byte, BitVec.ofNat 8 (b.toNat + 1) = b + 1 := fun b => by bv_omega
  have minusOne : ∀ b : Byte, BitVec.ofNat 8 (b.toNat + 255) = b - 1 := fun b => by bv_omega
  simp only [exec, execSta, execStx, execSty, execInc, execDec, execAsl, execLsr, execRol, execRor, modifyTarget,
    Host.Outcome.next.injEq]
  exact ⟨storeMem_advance_frame sound, storeMem_advance_frame sound, storeMem_advance_frame sound,
    fun e => modifyMem_setZN_frame sound e (plusOne _), fun e => modifyMem_setZN_frame sound e (minusOne _),
    fun e => modifyMem_withShift_frame sound e (shiftLeft_ofNat _).symm,
    fun e => modifyMem_withShift_frame sound e (shiftRight_ofNat _).symm,
    fun e => modifyMem_withShift_frame sound e (rotateLeft_ofNat _ _).symm,
    fun e => modifyMem_withShift_frame sound e (rotateRight_ofNat _ _).symm⟩

/-! ## Frames of the instructions that touch no memory -/

/-- A change of the CPU alone leaves both buses alone. -/
theorem cpuOnly_frame (s : State) (c : Cpu) : SameBus s { s with cpu := c } ∧ SameVideo s { s with cpu := c } :=
  ⟨.of_ram rfl rfl, .of_memories rfl rfl rfl rfl⟩

theorem cpuOnly_and {s t : State} {P : Prop} (e : t = { s with cpu := t.cpu }) (h : P) :
    (t = { s with cpu := t.cpu } ∧ SameBus s t ∧ SameVideo s t) ∧ P := by
  refine ⟨⟨e, ?_⟩, h⟩
  rw [e]
  exact cpuOnly_frame s _

/-- Settles O59: each meaning is a write of CPU registers; TXS, the no-ops and the branches write no flag. -/
theorem registerInstructionsFrame : Obligations.RegisterInstructionsFrame := by
  intro b s t
  simp only [List.forall_mem_cons, List.not_mem_nil, false_implies, implies_true, and_true]
  simp only [exec, execTxa, execTya, execTax, execTsx, execInx, execDex, execTay, execIny, execDey, execTxs, execAsl, execLsr,
    execRol, execRor, modifyTarget, execClc, execSec, execCli, execSei, execClv, execNop, execSed, execCld, execBpl, execBmi,
    execBvc, execBvs, execBcc, execBcs, execBne, execBeq, branch_eq, Host.Outcome.next.injEq]
  refine ⟨⟨?_, ?_⟩, ⟨?_, ?_, ?_, ?_⟩, ⟨?_, ?_, ?_⟩, ?txs, ⟨?_, ?_, ?_, ?_⟩, ⟨?_, ?_⟩, ⟨?_, ?_⟩, ?_, ?onlyPc⟩
  case txs =>
    rintro rfl
    exact cpuOnly_and rfl rfl
  case onlyPc =>
    and_intros
    all_goals
      rintro rfl
      exact cpuOnly_and rfl rfl
  all_goals
    rintro rfl
    exact ⟨cpuOnly_and rfl rfl, rfl⟩

/-! ## Frames of the instructions that use the stack or jump -/

/-- Pushing bytes writes the stack cells from SP downwards and no other (R34, R60). -/
theorem read_pushAll_ram (bytes : List Byte) {s : State} (wf : s.ram.wf = true) {j : Nat}
    (other : ∀ k < bytes.length, j ≠ stackIndex (s.cpu.sp - BitVec.ofNat 8 k)) :
    (pushAll bytes s).ram.read j = s.ram.read j := by
  induction bytes generalizing s with
  | nil => rfl
  | cons v bytes ih =>
    have top : j ≠ stackIndex s.cpu.sp := by simpa using other 0 (by simp)
    have below : ∀ k < bytes.length, j ≠ stackIndex ((push v s).cpu.sp - BitVec.ofNat 8 k) := fun k hk => by
      have next : s.cpu.sp - 1 - BitVec.ofNat 8 k = s.cpu.sp - BitVec.ofNat 8 (k + 1) := by bv_omega
      rw [push_eq, next]
      exact other (k + 1) (by simpa using hk)
    rw [pushAll, ih (Memory.write_wf _ v wf) below, push_eq, Memory.read_write wf, if_neg top]

/-- An instruction whose stores are the pushes of `bytes` leaves both buses alone outside the stack bytes it pushes. -/
theorem stackFrame_of_pushAll (bytes : List Byte) {s t : State} (wf : s.ram.wf = true)
    (e : t = { s with ram := (pushAll bytes s).ram, ppu := t.ppu, cpu := t.cpu }) :
    SameSession s t ∧ SameVideo s t
      ∧ ∀ a : Word, ¬InAperture a →
          (∀ k < bytes.length, a.toNat < 0x2000 → ramIndex a ≠ stackIndex (s.cpu.sp - BitVec.ofNat 8 k)) →
            byteAt t a = byteAt s a := by
  rw [e]
  exact ⟨.refl s, .of_memories rfl rfl rfl rfl, fun _ outside other => byteAt_congr outside rfl fun low =>
    read_pushAll_ram bytes wf fun k hk => other k hk low⟩

theorem memRead16_ppuReadFrame (a : Word) (s : State) : PpuReadFrame [a, a + 1] s (memRead16 a s).2 :=
  (cpuRead_ppuReadFrame a s).trans (cpuRead_ppuReadFrame (a + 1) _)

/-- JMP reads its pointer, if it has one, and then its target eagerly, if at all (R100, R103). -/
theorem jump_ppuReadFrame (target : JumpTarget) (s : State) :
    PpuReadFrame (jumpReads target s) s (eagerRead (jumpAddress target s).1 (jumpAddress target s).2) := by
  cases target with
  | abs addr => exact eagerRead_ppuReadFrame addr s
  | ind ptr =>
    have reads := (memRead16_ppuReadFrame ptr s).trans (eagerRead_ppuReadFrame (memRead16 ptr s).1 _)
    have params : (memRead16 ptr s).2.params = s.params := by simp only [memRead16, cpuRead_params]
    rw [eagerReads, params] at reads
    exact reads

/-- Entering a handler pushes the return address and the status byte (R220, R260). -/
theorem enterInterrupt_pushes (ret : Word) {vector : Word} (b : Bool) (s : State) (h : 0x8000 ≤ vector.toNat)
    (h1 : 0x8000 ≤ (vector + 1).toNat) :
    enterInterrupt ret vector b s = { s with
      ram := (pushAll [hi8 ret, lo8 ret, { s.cpu.p with b := b }.serialize] s).ram
      cpu := (enterInterrupt ret vector b s).cpu } := by
  have second : s.cpu.sp - 1 - 1 = s.cpu.sp - 2 := by bv_omega
  simp only [enterInterrupt_eq ret vector b s h h1, pushAll, push_eq, second]

theorem enterInterrupt_cpu (ret : Word) {vector : Word} (b : Bool) (s : State) (h : 0x8000 ≤ vector.toNat)
    (h1 : 0x8000 ≤ (vector + 1).toNat) :
    (enterInterrupt ret vector b s).cpu = { s.cpu with
      sp := s.cpu.sp - 3, p := { s.cpu.p with b := b, i := true }, pc := (enterInterrupt ret vector b s).cpu.pc } := by
  rw [enterInterrupt_eq ret vector b s h h1]

/-- Settles O60: the bytes each instruction pushes, the registers it writes, and the reads of JSR and JMP. -/
theorem stackInstructionsFrame : Obligations.StackInstructionsFrame := by
  intro w target s t wf
  have eagerFrame := eagerRead_ppuReadFrame w s
  have jumpFrame := jump_ppuReadFrame target s
  obtain ⟨q, eager⟩ : ∃ q, eagerRead w s = s.setPpu q := ⟨_, eagerRead_state w s⟩
  obtain ⟨q', jump⟩ : ∃ q, eagerRead (jumpAddress target s).1 (jumpAddress target s).2 = s.setPpu q :=
    ⟨_, by rw [eagerRead_state, jumpAddress_state]; rfl⟩
  rw [eager] at eagerFrame
  rw [jump] at jumpFrame
  simp only [exec, execPha, execPhp, execPla, execPlp, execJsr, execRts, execBrk, execRti, execJmp, eager, jump, popWord_eq,
    returnFromInterrupt_eq, Host.Outcome.next.injEq]
  refine ⟨?pha, ?php, ?pla, ?plp, ?jsr, ?rts, ?brk, ?rti, ?jmp⟩
  case pha | php =>
    rintro rfl
    exact ⟨stackFrame_of_pushAll [_] wf rfl, rfl, rfl⟩
  case pla | plp | rts | rti =>
    rintro rfl
    exact ⟨stackFrame_of_pushAll [] wf rfl, rfl, rfl⟩
  case jsr =>
    rintro rfl
    exact ⟨stackFrame_of_pushAll [_, _] wf rfl, rfl, eagerFrame.of_same_ppu rfl⟩
  case brk =>
    have pushes ret := enterInterrupt_pushes ret (vector := brkVector) true s (by decide) (by decide)
    have cpu ret := enterInterrupt_cpu ret (vector := brkVector) true s (by decide) (by decide)
    rintro rfl
    exact ⟨stackFrame_of_pushAll [_, _, _] wf (by rw [pushes]), by rw [cpu], by rw [pushes], by rw [cpu]⟩
  case jmp =>
    rintro rfl
    exact ⟨stackFrame_of_pushAll [] wf rfl, rfl, jumpFrame.of_same_ppu rfl⟩

end Sys2Proof.Machine

/-!
PROOFS. The statements of 20_memory.md: the CPU bus and its RAM mirrors, the stack, and the PPU bus.
-/

namespace Sys2Proof.Machine

/-! ## The CPU bus, range by range (R52 to R56) -/

/-- R52's `a & $07FF`. -/
theorem toNat_and_ramMask (a : Word) : (a &&& 0x07FF).toNat = ramIndex a :=
  (BitVec.toNat_and a 0x07FF).trans (Nat.and_two_pow_sub_one_eq_mod a.toNat 11)

/-- R53's `a & 7`. -/
theorem toNat_and_registerMask (a : Word) : (a &&& 7).toNat = ppuRegister a :=
  (BitVec.toNat_and a 7).trans (Nat.and_two_pow_sub_one_eq_mod a.toNat 3)

theorem cpuRead_of_ram {a : Word} (s : State) (h : a.toNat < 0x2000) : cpuRead a s = (s.ram.read (ramIndex a), s) := if_pos h

theorem cpuRead_of_aperture {a : Word} (s : State) (h : InAperture a) : cpuRead a s = ppuRegRead (ppuRegister a) s := by
  unfold InAperture at h
  rw [cpuRead, if_neg (by omega), if_pos (by omega)]

theorem cpuRead_of_unmapped {a : Word} (s : State) (h : 0x4000 ≤ a.toNat) (h' : a.toNat < 0x8000) : cpuRead a s = (0, s) := by
  rw [cpuRead, if_neg (by omega), if_neg (by omega), if_pos h']

theorem cpuRead_of_prg {a : Word} (s : State) (h : 0x8000 ≤ a.toNat) :
    cpuRead a s = (s.cart.prg.read (prgIndex s.cart a), s) := by
  rw [cpuRead, if_neg (by omega), if_neg (by omega), if_neg (by omega)]

/-- Settles O18: one lemma per range for reads, one for writes, with the masks of R52 and R53 as remainders. -/
theorem cpuBusMap : Obligations.CpuBusMap := by
  intro s a v
  rw [toNat_and_ramMask, toNat_and_registerMask]
  refine ⟨fun low => ⟨cpuRead_of_ram s low, cpuWrite_ram v s low⟩,
    fun inside => ⟨cpuRead_of_aperture s inside, cpuWrite_aperture v s inside⟩,
    fun high => cpuWrite_dropped v s high, fun ⟨high, low⟩ => cpuRead_of_unmapped s high low, fun prg => ?_⟩
  rw [cpuRead_of_prg s prg, prgIndex]
  cases s.cart.prgSize <;> simp only [PrgSize.bytes]

/-! ## The RAM mirrors (R52) -/

@[simp] theorem videoRead_setRam (s : State) (m : Memory) (a : Nat) : videoRead (s.setRam m) a = videoRead s a := rfl

/-- A PPU register read does not look at ram. -/
theorem ppuRegRead_setRam_value (n : Nat) (s : State) (m : Memory) : (ppuRegRead n (s.setRam m)).1 = (ppuRegRead n s).1 := by
  unfold ppuRegRead
  split
  · rfl
  · simp only [readData, dataFetch, State.setRam_ppu, State.setRam_params, videoRead_setRam]
    rfl
  · rfl

/-- From $2000 up the bus does not show ram. -/
theorem byteAt_setRam_of_high {b : Word} (s : State) (m : Memory) (h : 0x2000 ≤ b.toNat) :
    byteAt (s.setRam m) b = byteAt s b := by
  by_cases inside : InAperture b
  · unfold byteAt
    rw [cpuRead_of_aperture _ inside, cpuRead_of_aperture _ inside, ppuRegRead_setRam_value]
  · exact byteAt_congr inside rfl fun low => absurd low (by omega)

/-- Settles O19: below $2000 the bus shows the cell, and above it no ram. -/
theorem ramMirrors : Obligations.RamMirrors := by
  intro s a b v wf ha
  rw [cpuWrite_ram v s ha]
  by_cases hb : b.toNat < 0x2000
  · simp only [byteAt, cpuRead_of_ram _ hb, State.setRam_ram, Memory.read_write wf, ramIndex, hb, true_and]
  · rw [byteAt_setRam_of_high _ _ (by omega), if_neg fun mirror => hb mirror.1]

/-! ## The stack (R60 to R62) -/

/-- The last of `n + 1` pops, set apart from the `n` before it. -/
theorem popMany_succ (n : Nat) (s : State) :
    popMany (n + 1) s = ((popMany n s).1 ++ [(pop (popMany n s).2).1], (pop (popMany n s).2).2) := by
  induction n generalizing s with
  | zero => rfl
  | succ n ih => rw [popMany, ih, popMany]; rfl

/-- A byte pushed stays in its cell under up to 255 further pushes (R34, R60). -/
theorem read_pushAll_push {s : State} (wf : s.ram.wf = true) (v : Byte) {bytes : List Byte} (few : bytes.length < 256) :
    (pushAll bytes (push v s)).ram.read (stackIndex s.cpu.sp) = v := by
  rw [read_pushAll_ram bytes (Memory.write_wf _ v wf), push_eq, Memory.read_write wf, if_pos rfl]
  intro k hk same
  have sp := stackIndex_inj same
  rw [push_eq] at sp
  bv_omega

/-- Popping what was pushed gives the bytes back, the last one first, and restores the CPU: the byte pushed first is the one the
last pop reads, and no later push has reached its cell. -/
theorem popMany_pushAll (bytes : List Byte) {s : State} (wf : s.ram.wf = true) (bound : bytes.length ≤ 256) :
    popMany bytes.length (pushAll bytes s) = (bytes.reverse, { pushAll bytes s with cpu := s.cpu }) := by
  induction bytes generalizing s with
  | nil => rfl
  | cons v bytes ih =>
    have few : bytes.length < 256 := bound
    have top : (push v s).cpu.sp + 1 = s.cpu.sp := by rw [push_eq]; bv_omega
    rw [List.length_cons, popMany_succ, pushAll, ih (Memory.write_wf _ v wf) (Nat.le_of_lt few), pop_eq, top,
      read_pushAll_push wf v few, List.reverse_cons]
    rfl

/-- Settles O21: the pops return the reversed bytes and the CPU as it was, over the ram the pushes left. -/
theorem stackRoundTrip : Obligations.StackRoundTrip := by
  intro s bytes wf bound
  rw [popMany_pushAll bytes wf bound]
  exact ⟨rfl, rfl⟩

/-! ## The PPU bus: the cell of each range (R69 to R72) -/

theorem videoCell_mod (cart : Cartridge) (a : Nat) : videoCell cart (a % 0x4000) = videoCell cart a := by
  simp only [videoCell, Nat.mod_mod]

theorem videoCell_of_pattern {a : Nat} (cart : Cartridge) (h : a < 0x2000) :
    videoCell cart a = if cart.chrRom.isSome then .chrRom a else .chrRam a := by
  simp only [videoCell, Nat.mod_eq_of_lt (show a < 0x4000 by omega), if_pos h]

theorem videoCell_of_nametable {a : Nat} (cart : Cartridge) (h : 0x2000 ≤ a) (h' : a < 0x3F00) :
    videoCell cart a = .ciram (ciramIndex cart.mirroring a) := by
  simp only [videoCell, Nat.mod_eq_of_lt (show a < 0x4000 by omega), if_neg (Nat.not_lt.mpr h), if_pos h']

theorem videoCell_of_palette {a : Nat} (cart : Cartridge) (h : 0x3F00 ≤ a) (h' : a < 0x4000) :
    videoCell cart a = .palette (paletteIndex a) := by
  simp only [videoCell, Nat.mod_eq_of_lt h', if_neg (show ¬a < 0x2000 by omega), if_neg (Nat.not_lt.mpr h)]

/-! What a read and a write of each cell do (R70 to R73). -/

section
variable {s : State} {a k : Nat} (d : Byte)

theorem videoAccess_chrRom (h : videoCell s.cart a = .chrRom k) :
    videoRead s a = (s.cart.chrRom.getD []).read k ∧ videoWrite s a d = s := by
  simp only [videoRead, videoWrite, h, and_self]

theorem videoAccess_chrRam (h : videoCell s.cart a = .chrRam k) :
    videoRead s a = s.chrRam.read k ∧ videoWrite s a d = s.setChrRam (s.chrRam.write k d) := by
  simp only [videoRead, videoWrite, h, and_self]

theorem videoAccess_ciram (h : videoCell s.cart a = .ciram k) :
    videoRead s a = s.ciram.read k ∧ videoWrite s a d = s.setCiram (s.ciram.write k d) := by
  simp only [videoRead, videoWrite, h, and_self]

theorem videoAccess_palette (h : videoCell s.cart a = .palette k) :
    videoRead s a = s.palette.read k ∧ videoWrite s a d = s.setPalette (s.palette.write k d) := by
  simp only [videoRead, videoWrite, h, and_self]

end

/-! ## The two index functions: R71 and R72 as the spec writes them, and the mirrors -/

/-! R71's masks and shifts are the remainders and quotients of `ciramIndex`. -/

theorem and_nametablesMask (a : Nat) : a &&& 0x0FFF = a % 0x1000 := Nat.and_two_pow_sub_one_eq_mod a 12

theorem and_nametableMask (o : Nat) : o &&& 0x03FF = o % 0x400 := Nat.and_two_pow_sub_one_eq_mod o 10

theorem ciramIndex_horizontal (a : Nat) :
    ciramIndex .horizontal a =
      (((a - 0x2000) &&& 0x0FFF) >>> 10 >>> 1) * 0x400 + (((a - 0x2000) &&& 0x0FFF) &&& 0x03FF) := by
  simp only [and_nametablesMask, ciramIndex, and_nametableMask, Nat.shiftRight_eq_div_pow, Nat.reducePow, Nat.pow_one]

theorem ciramIndex_vertical (a : Nat) :
    ciramIndex .vertical a =
      (((a - 0x2000) &&& 0x0FFF) >>> 10 &&& 1) * 0x400 + (((a - 0x2000) &&& 0x0FFF) &&& 0x03FF) := by
  simp only [and_nametablesMask, ciramIndex, and_nametableMask, Nat.shiftRight_eq_div_pow, Nat.and_one_is_mod, Nat.reducePow]

theorem paletteIndex_eq (a : Nat) :
    paletteIndex a = if a &&& 0x1F = 0x10 ∨ a &&& 0x1F = 0x14 ∨ a &&& 0x1F = 0x18 ∨ a &&& 0x1F = 0x1C then (a &&& 0x1F) - 0x10
      else a &&& 0x1F := by
  rw [show a &&& 0x1F = a % 0x20 from Nat.and_two_pow_sub_one_eq_mod a 5]
  rfl

/-- $3000 to $3EFF mirrors $2000 to $2EFF (R71). -/
theorem ciramIndex_sub_0x1000 (m : Mirroring) {a : Nat} (h : 0x3000 ≤ a) : ciramIndex m (a - 0x1000) = ciramIndex m a := by
  have offset : (a - 0x1000 - 0x2000) % 0x1000 = (a - 0x2000) % 0x1000 := by omega
  simp only [ciramIndex, offset]

/-- The nametable that shares its cells with nametable 0 (R71). -/
theorem ciramIndex_nametable0 {m : Mirroring} {k : Nat} (hk : k < 0x400) :
    ciramIndex m (0x2000 + k) = ciramIndex m (match m with | .horizontal => 0x2400 + k | .vertical => 0x2800 + k) := by
  cases m <;> simp only [ciramIndex] <;> omega

/-- The nametable that shares its cells with nametable 3 (R71). -/
theorem ciramIndex_nametable3 {m : Mirroring} {k : Nat} (hk : k < 0x400) :
    ciramIndex m (0x2C00 + k) = ciramIndex m (match m with | .horizontal => 0x2800 + k | .vertical => 0x2400 + k) := by
  cases m <;> simp only [ciramIndex] <;> omega

/-- The palette repeats every 32 bytes (R72). -/
theorem paletteIndex_add_0x20 (a : Nat) : paletteIndex (a + 0x20) = paletteIndex a := by
  simp only [paletteIndex, Nat.add_mod_right]

/-- $10, $14, $18 and $1C are $00, $04, $08 and $0C (R72). -/
theorem paletteIndex_backdrop {k : Nat} (hk : k < 4) : paletteIndex (0x3F10 + 4 * k) = paletteIndex (0x3F00 + 4 * k) := by
  revert k
  decide

/-! ## A read after a write -/

@[simp] theorem videoWrite_cart (s : State) (a : Nat) (d : Byte) : (videoWrite s a d).cart = s.cart := by rw [videoWrite_frame]

/-- A write is seen at its own cell, unless that is CHR ROM (R70, R73). -/
theorem videoRead_videoWrite_same {s : State} (sound : s.Sound) {a b : Nat} (d : Byte)
    (same : videoCell s.cart b = videoCell s.cart a) (writable : ¬(a % 0x4000 < 0x2000 ∧ s.cart.chrRom.isSome = true)) :
    videoRead (videoWrite s a d) b = d := by
  have cell : ∀ c, videoCell s.cart a = c → videoCell (videoWrite s a d).cart b = c :=
    fun c h => by rw [videoWrite_cart, same, h]
  rcases videoCell_cases s.cart a with ⟨rom, low, _⟩ | ⟨_, _, h⟩ | ⟨k, _, _, h⟩ | ⟨k, _, _, h⟩
  · exact absurd ⟨low, rom⟩ writable
  · rw [(videoAccess_chrRam d (cell _ h)).1, (videoAccess_chrRam d h).2]
    exact (Memory.read_write sound.chrRam.1 _ _ d).trans (if_pos rfl)
  · rw [(videoAccess_ciram d (cell _ h)).1, (videoAccess_ciram d h).2]
    exact (Memory.read_write sound.ciram.1 _ _ d).trans (if_pos rfl)
  · rw [(videoAccess_palette d (cell _ h)).1, (videoAccess_palette d h).2]
    exact (Memory.read_write sound.palette.1 _ _ d).trans (if_pos rfl)

/-- CHR ROM is read only (R70). -/
theorem videoWrite_chrRom {s : State} {a : Nat} (d : Byte) (low : a % 0x4000 < 0x2000) (rom : s.cart.chrRom.isSome = true) :
    videoWrite s a d = s :=
  (videoAccess_chrRom d ((videoCell_mod s.cart a).symm.trans ((videoCell_of_pattern s.cart low).trans (if_pos rom)))).2

theorem videoRead_videoWrite {s : State} (sound : s.Sound) (a b : Nat) (d : Byte) :
    videoRead (videoWrite s a d) b =
      if videoCell s.cart b = videoCell s.cart a ∧ ¬(a % 0x4000 < 0x2000 ∧ s.cart.chrRom.isSome = true) then d
      else videoRead s b := by
  by_cases readOnly : a % 0x4000 < 0x2000 ∧ s.cart.chrRom.isSome = true
  · rw [videoWrite_chrRom d readOnly.1 readOnly.2, if_neg fun h => h.2 readOnly]
  · by_cases same : videoCell s.cart b = videoCell s.cart a
    · rw [if_pos ⟨same, readOnly⟩, videoRead_videoWrite_same sound d same readOnly]
    · rw [if_neg fun h => same h.1, videoRead_videoWrite_other sound.ciram.1 sound.palette.1 sound.chrRam.1 same]

/-- Two nametable addresses with the same ciram index read the same byte. -/
theorem videoRead_nametable {s : State} {a b : Nat} (ha : 0x2000 ≤ a ∧ a < 0x3F00) (hb : 0x2000 ≤ b ∧ b < 0x3F00)
    (h : ciramIndex s.cart.mirroring a = ciramIndex s.cart.mirroring b) : videoRead s a = videoRead s b :=
  videoRead_cell (by rw [videoCell_of_nametable _ ha.1 ha.2, videoCell_of_nametable _ hb.1 hb.2, h])

/-- Two palette addresses with the same palette index read the same byte. -/
theorem videoRead_palette {s : State} {a b : Nat} (ha : 0x3F00 ≤ a ∧ a < 0x4000) (hb : 0x3F00 ≤ b ∧ b < 0x4000)
    (h : paletteIndex a = paletteIndex b) : videoRead s a = videoRead s b :=
  videoRead_cell (by rw [videoCell_of_palette _ ha.1 ha.2, videoCell_of_palette _ hb.1 hb.2, h])

/-- Settles O24: the cell of each range, the index equalities behind its mirrors, and the read after a write. -/
theorem videoMemoryMap : Obligations.VideoMemoryMap := by
  intro s a b d o n k cell p entry
  have hcell : cell = ciramIndex s.cart.mirroring a := by
    simp only [cell]
    cases s.cart.mirroring with
    | horizontal => exact (ciramIndex_horizontal a).symm
    | vertical => exact (ciramIndex_vertical a).symm
  have hentry : entry = paletteIndex a := (paletteIndex_eq a).symm
  rw [hcell, hentry]
  refine ⟨videoRead_cell (videoCell_mod s.cart a).symm, ?modWrite, ?chrRam, ?chrRom, ?nametable, ?palette, ?mirror3000, ?table0,
    ?table3, ?backdrop, ?repeats, fun sound => videoRead_videoWrite sound a b d⟩
  case modWrite => simp only [videoWrite, videoCell_mod]
  case chrRam =>
    intro low noRom
    have h : videoCell s.cart a = .chrRam a := by rw [videoCell_of_pattern _ low, noRom]; rfl
    exact ⟨h, videoAccess_chrRam d h⟩
  case chrRom =>
    intro rom low hasRom
    have h : videoCell s.cart a = .chrRom a := by rw [videoCell_of_pattern _ low, hasRom]; rfl
    have access := videoAccess_chrRom d h
    rw [hasRom] at access
    exact ⟨h, access⟩
  case nametable =>
    intro low high
    have h := videoCell_of_nametable s.cart low high
    exact ⟨h, videoAccess_ciram d h⟩
  case palette =>
    intro low high
    have h := videoCell_of_palette s.cart low high
    exact ⟨h, videoAccess_palette d h⟩
  case mirror3000 =>
    intro ⟨low, high⟩
    exact videoRead_nametable (by omega) (by omega) (ciramIndex_sub_0x1000 _ low).symm
  case table0 =>
    intro ha
    refine videoRead_nametable (by omega) ?_ (ciramIndex_nametable0 ha)
    cases s.cart.mirroring <;> simp only <;> omega
  case table3 =>
    intro ha
    refine videoRead_nametable (by omega) ?_ (ciramIndex_nametable3 ha)
    cases s.cart.mirroring <;> simp only <;> omega
  case backdrop =>
    intro ha
    exact videoRead_palette (by omega) (by omega) (paletteIndex_backdrop ha)
  case repeats =>
    intro ha
    refine videoRead_palette (by omega) (by omega) ?_
    rw [show 0x3F20 + a = 0x3F00 + a + 0x20 by omega, paletteIndex_add_0x20]

end Sys2Proof.Machine

/-!
PROOFS. The statements of 30_encoding.md: decoding undoes encoding, decoding is total, and the effective addresses.
-/

namespace Sys2Proof

/-! ## The cells of the table, and what each fetches (R90, R91, R104) -/

/-- The operand bytes an instruction of `n` bytes fetches, of operand byte `b` and 16-bit operand `w` (R90, R91). -/
def fetchedOperands (n : Nat) (b : Byte) (w : Word) : List Byte :=
  match n with
  | 1 => []
  | 2 => [b]
  | _ => wordBytes w

/-- The cell of `op` as `decode` reads it: from the operand bytes its length makes it fetch, what is not fetched being 0 (R92). -/
def fetchedCell (op b : Byte) (w : Word) : Instr :=
  match opcodeLength op with
  | 1 => decodeFields op 0 0
  | 2 => decodeFields op b 0
  | _ => decodeFields op (lo8 w) w

/-- `i` is the row of `op` in the decode table with operands `b` and `w`, and uses no more of them than it fetches (R104). -/
structure IsCell (op b : Byte) (w : Word) (i : Instr) : Prop where
  opcode : i.opcode = some op
  operandBytes : i.operandBytes = fetchedOperands (opcodeLength op) b w
  fetched : fetchedCell op b w = i

theorem nibble_cases {n : Nat} (h : n < 16) :
    n = 0 ∨ n = 1 ∨ n = 2 ∨ n = 3 ∨ n = 4 ∨ n = 5 ∨ n = 6 ∨ n = 7 ∨ n = 8 ∨ n = 9 ∨ n = 10 ∨ n = 11 ∨ n = 12 ∨ n = 13
      ∨ n = 14 ∨ n = 15 := by
  omega

/-- An opcode byte is a row and a column of the table (R104). -/
theorem exists_row_col (op : Byte) : ∃ row < 16, ∃ col < 16, op = BitVec.ofNat 8 (16 * row + col) := by
  have bound := op.isLt
  refine ⟨op.toNat / 16, by omega, op.toNat % 16, by omega, ?_⟩
  rw [Nat.div_add_mod, BitVec.ofNat_toNat, BitVec.setWidth_eq]

/-- The decode table against the encoder, cell by cell: each of the 256 cells is evaluated at free operands. -/
theorem decodeFields_isCell (op b : Byte) (w : Word) : IsCell op b w (decodeFields op b w) := by
  obtain ⟨row, hrow, col, hcol, rfl⟩ := exists_row_col op
  rcases nibble_cases hrow with
    rfl | rfl | rfl | rfl | rfl | rfl | rfl | rfl | rfl | rfl | rfl | rfl | rfl | rfl | rfl | rfl <;>
  rcases nibble_cases hcol with
    rfl | rfl | rfl | rfl | rfl | rfl | rfl | rfl | rfl | rfl | rfl | rfl | rfl | rfl | rfl | rfl <;>
  exact ⟨rfl, rfl, rfl⟩

/-- Decoding an opcode byte and the operand bytes it fetches gives its cell and leaves the bytes after it (R90, R92). -/
theorem decode_fetchedOperands (op b : Byte) (w : Word) (rest : List Byte) :
    decode (op :: (fetchedOperands (opcodeLength op) b w ++ rest)) = .ok (fetchedCell op b w, rest) := by
  rcases opcodeLength_cases op with h | h | h <;> simp only [fetchedOperands, fetchedCell, h]
  · exact decode_of_length_one rest h
  · exact decode_of_length_two b rest h
  · have joined := decode_of_length_three (lo8 w) (hi8 w) rest h
    rwa [Machine.hi8_append_lo8] at joined

/-! ## Every instruction with an opcode byte is a cell of the table (R104) -/

/-- The operand byte and the 16-bit operand of a memory operand; the one its mode does not have is 0 (R90). -/
def MemMode.fields : MemMode → Byte × Word
  | .zrp b | .zpx b | .zpy b | .izx b | .izy b => (b, 0)
  | .abs w | .abx w | .aby w => (0, w)

/-- Where several bytes share a mnemonic and a mode, the encoder gives the byte the instruction holds, if it is one of them (R242). -/
theorem opcode_if_contains {cells : List Byte} {op op' : Byte}
    (h : (if cells.contains op' then some op' else none) = some op) : op' ∈ cells ∧ op' = op := by
  rw [Option.ite_none_right_eq_some] at h
  obtain ⟨contained, same⟩ := h
  exact ⟨List.contains_iff_mem.mp contained, Option.some.inj same⟩

theorem decodeFields_kil {op : Byte} (h : op ∈ kilBytes) : decodeFields op 0 0 = .kil op :=
  (by decide : ∀ op ∈ kilBytes, decodeFields op 0 0 = .kil op) op h

theorem decodeFields_nop_imp {op : Byte} (h : op ∈ Mode.imp.nopBytes) : decodeFields op 0 0 = .nopUnofficial op .imp :=
  (by decide : ∀ op ∈ Mode.imp.nopBytes, decodeFields op 0 0 = .nopUnofficial op .imp) op h

theorem decodeFields_nop_imm {op : Byte} (b : Byte) (h : op ∈ Mode.imm.nopBytes) :
    decodeFields op b 0 = .nopUnofficial op (.imm b) := by
  simp only [Mode.nopBytes, List.mem_cons, List.not_mem_nil, or_false] at h
  rcases h with rfl | rfl | rfl | rfl | rfl <;> rfl

theorem decodeFields_nop_mem {op : Byte} {m : MemMode} (h : op ∈ m.mode.nopBytes) :
    decodeFields op m.fields.1 m.fields.2 = .nopUnofficial op (.mem m) := by
  cases m <;> simp only [MemMode.mode, Mode.nopBytes, List.mem_cons, List.not_mem_nil, or_false] at h
  case zrp => rcases h with rfl | rfl | rfl <;> rfl
  case zpx => rcases h with rfl | rfl | rfl | rfl | rfl | rfl <;> rfl
  case abs => subst h; rfl
  case abx => rcases h with rfl | rfl | rfl | rfl | rfl | rfl <;> rfl

theorem decodeFields_anc {op : Byte} (b : Byte) (h : op ∈ ancCells) : decodeFields op b 0 = .anc op b := by
  simp only [ancCells, List.mem_cons, List.not_mem_nil, or_false] at h
  rcases h with rfl | rfl <;> rfl

/-- The encoder against the decode table: an instruction is the cell of its opcode byte. The cases are the shapes of operands. -/
theorem decodeFields_of_opcode {i : Instr} {op : Byte} (h : i.opcode = some op) : ∃ b w, decodeFields op b w = i := by
  cases i with
  | lda s | ldx s | ldy s | adc s | sbc s | and s | ora s | eor s | cmp s | cpx s | cpy s | lax s =>
    cases s with
    | imm b =>
      cases h
      exact ⟨b, 0, rfl⟩
    | mem m =>
      refine ⟨m.fields.1, m.fields.2, ?_⟩
      cases m <;> cases h <;> rfl
  | sta m | stx m | sty m | bit m | inc m | dec m | slo m | rla m | sre m | rra m | sax m | dcp m | isc m | ahx m =>
    refine ⟨m.fields.1, m.fields.2, ?_⟩
    cases m <;> cases h <;> rfl
  | asl d | lsr d | rol d | ror d =>
    cases d with
    | acc =>
      cases h
      exact ⟨0, 0, rfl⟩
    | mem m =>
      refine ⟨m.fields.1, m.fields.2, ?_⟩
      cases m <;> cases h <;> rfl
  | jmp target =>
    cases target with
    | abs w | ind w =>
      cases h
      exact ⟨0, w, rfl⟩
  | jsr w | tas w | shy w | shx w | las w =>
    cases h
    exact ⟨0, w, rfl⟩
  | bpl b | bmi b | bvc b | bvs b | bcc b | bcs b | bne b | beq b | alr b | arr b | xaa b | axs b | usbc b =>
    cases h
    exact ⟨b, 0, rfl⟩
  | tax | tay | txa | tya | tsx | txs | inx | iny | dex | dey | rts | pha | pla | php | plp | clc | sec | cli | sei | clv | nop
  | brk | sed | cld | rti =>
    cases h
    exact ⟨0, 0, rfl⟩
  | kil op' =>
    obtain ⟨cell, rfl⟩ : op' ∈ kilBytes ∧ op' = op := opcode_if_contains h
    exact ⟨0, 0, decodeFields_kil cell⟩
  | nopUnofficial op' operand =>
    obtain ⟨cell, rfl⟩ : op' ∈ operand.mode.nopBytes ∧ op' = op := opcode_if_contains h
    cases operand with
    | imp => exact ⟨0, 0, decodeFields_nop_imp cell⟩
    | imm b => exact ⟨b, 0, decodeFields_nop_imm b cell⟩
    | mem m => exact ⟨m.fields.1, m.fields.2, decodeFields_nop_mem cell⟩
  | anc op' b =>
    obtain ⟨cell, rfl⟩ : op' ∈ ancCells ∧ op' = op := opcode_if_contains h
    exact ⟨b, 0, decodeFields_anc b cell⟩

/-! ## Decoding undoes encoding (R90, R91) -/

open Laws.LengthByMode in
/-- The laws per constructor, for every instruction: it has an opcode byte exactly when it is well formed, and as many bytes as its mode says. -/
theorem lengthByMode : ∀ i : Instr, Statement i
  | .lda src => lda src | .ldx src => ldx src | .ldy src => ldy src | .sta dst => sta dst | .stx dst => stx dst
  | .sty dst => sty dst | .tax => tax | .tay => tay | .txa => txa | .tya => tya | .tsx => tsx | .txs => txs
  | .adc src => adc src | .sbc src => sbc src | .and src => and src | .ora src => ora src | .eor src => eor src
  | .bit src => bit src | .cmp src => cmp src | .cpx src => cpx src | .cpy src => cpy src | .inc dst => inc dst
  | .dec dst => dec dst | .inx => inx | .iny => iny | .dex => dex | .dey => dey | .asl dst => asl dst | .lsr dst => lsr dst
  | .rol dst => rol dst | .ror dst => ror dst | .jmp target => jmp target | .jsr addr => jsr addr | .rts => rts
  | .bpl rel => bpl rel | .bmi rel => bmi rel | .bvc rel => bvc rel | .bvs rel => bvs rel | .bcc rel => bcc rel
  | .bcs rel => bcs rel | .bne rel => bne rel | .beq rel => beq rel | .pha => pha | .pla => pla | .php => php | .plp => plp
  | .clc => clc | .sec => sec | .cli => cli | .sei => sei | .clv => clv | .nop => nop | .brk => brk | .sed => sed
  | .cld => cld | .rti => rti | .kil op => kil op | .nopUnofficial op operand => nopUnofficial op operand | .slo m => slo m
  | .rla m => rla m | .sre m => sre m | .rra m => rra m | .sax m => sax m | .lax src => lax src | .dcp m => dcp m
  | .isc m => isc m | .anc op b => anc op b | .alr b => alr b | .arr b => arr b | .xaa b => xaa b | .axs b => axs b
  | .ahx m => ahx m | .tas addr => tas addr | .shy addr => shy addr | .shx addr => shx addr | .las addr => las addr
  | .usbc b => usbc b

/-- A cell has the length its opcode byte alone fixes (R91, R108). -/
theorem IsCell.length {op b : Byte} {w : Word} {i : Instr} (h : IsCell op b w i) : i.length = opcodeLength op := by
  obtain ⟨_, bytes⟩ := lengthByMode i
  rw [h.operandBytes] at bytes
  rw [← bytes]
  rcases opcodeLength_cases op with n | n | n <;> rw [n] <;> rfl

/-- Decoding a cell's opcode and operand bytes gives it back and leaves the bytes after it (R90, R92). -/
theorem IsCell.decodes {op b : Byte} {w : Word} {i : Instr} (h : IsCell op b w i) (rest : List Byte) :
    decode (op :: (i.operandBytes ++ rest)) = .ok (i, rest) := by
  rw [h.operandBytes, decode_fetchedOperands, h.fetched]

theorem encode_of_opcode {i : Instr} {op : Byte} (h : i.opcode = some op) : encode i = some (op :: i.operandBytes) := by
  rw [encode, h, Option.map_some]

/-- Settles O1: a well-formed instruction has an opcode byte, is the cell of it, and a cell's bytes decode to it. -/
theorem decodeOfEncode : Obligations.DecodeOfEncode := by
  intro i rest wf
  obtain ⟨wf_eq, length⟩ := lengthByMode i
  obtain ⟨op, opcode⟩ := Option.isSome_iff_exists.mp (wf_eq.symm.trans wf)
  obtain ⟨b, w, rfl⟩ := decodeFields_of_opcode opcode
  exact ⟨_, encode_of_opcode opcode, length, (decodeFields_isCell op b w).decodes rest⟩

/-! ## Decoding is total (R93) -/

/-- A 16-bit operand read from two bytes is those two bytes, low byte first (R90). -/
theorem wordBytes_append (hi lo : Byte) : wordBytes (hi ++ lo) = [lo, hi] := by
  have low : lo8 (hi ++ lo) = lo := BitVec.eq_of_toNat_eq (by
    rw [Machine.toNat_lo8, Machine.toNat_append_byte]
    omega)
  have high : hi8 (hi ++ lo) = hi := BitVec.eq_of_toNat_eq (by
    rw [Machine.toNat_hi8, Machine.toNat_append_byte]
    omega)
  rw [wordBytes, low, high]

/-- The bytes after an opcode byte begin with the operand bytes its cell fetches (R92). -/
theorem exists_fetchedOperands_append (op b1 b2 : Byte) (rest : List Byte) :
    ∃ after, b1 :: b2 :: rest = fetchedOperands (opcodeLength op) b1 (b2 ++ b1) ++ after := by
  rcases opcodeLength_cases op with h | h | h <;> rw [h]
  · exact ⟨b1 :: b2 :: rest, rfl⟩
  · exact ⟨b2 :: rest, rfl⟩
  · exact ⟨rest, (congrArg (· ++ rest) (wordBytes_append b2 b1)).symm⟩

/-- Settles O2: the bytes begin with the encoding of a cell of the table, which decodes to it, and every instruction has a next state. -/
theorem everyByteDecodes : Obligations.EveryByteDecodes := by
  intro op b1 b2 rest
  have cell := decodeFields_isCell op b1 (b2 ++ b1)
  generalize decodeFields op b1 (b2 ++ b1) = i at cell
  obtain ⟨wf_eq, length⟩ := lengthByMode i
  replace length : (op :: i.operandBytes).length = i.length := length
  obtain ⟨after, operands⟩ := exists_fetchedOperands_append op b1 b2 rest
  have bytes : op :: b1 :: b2 :: rest = (op :: i.operandBytes) ++ after := by
    rw [operands, cell.operandBytes, List.cons_append]
  refine ⟨i, ?decodes, ?wf, cell.length, ?consumed, ?executes⟩
  case decodes => rw [bytes, List.drop_left' length, List.cons_append, cell.decodes]
  case wf => rw [wf_eq, cell.opcode, Option.isSome_some]
  case consumed => rw [bytes, List.take_left' length, encode_of_opcode cell.opcode]
  case executes =>
    intro s
    obtain ⟨t, next, _⟩ := Machine.exec_answers i s
    exact ⟨t, next⟩

/-- Settles O3: the decode table has the instructions' cells at these bytes. -/
theorem exampleWordsDecode : Obligations.ExampleWordsDecode :=
  ⟨rfl, rfl, rfl, rfl, rfl, rfl, rfl, rfl⟩

end Sys2Proof

namespace Sys2Proof.Machine

/-! ## Effective addresses (R97 to R103) -/

/-- A zero-page pointer as arithmetic: the byte at `z` and, 256 times, the byte at the next location, which wraps only under
`ZP_POINTER_WRAP` (R101). -/
theorem toNat_zeroPagePointer (z : Byte) (s : State) :
    (zeroPagePointer z s).toNat =
      256 * (s.ram.read (if s.params.zpPointerWrap then (z.toNat + 1) % 256 else z.toNat + 1)).toNat
        + (s.ram.read z.toNat).toNat := by
  rw [zeroPagePointer_ram, toNat_append_byte, BitVec.toNat_add]
  rfl

/-- Settles O4: the zero-page modes add mod 256, the absolute ones mod 65536, and the indirect ones read a zero-page pointer. -/
theorem effectiveAddresses : Obligations.EffectiveAddresses := by
  intro s b w high pointer
  have byte (v : Byte) : (v.setWidth 16 : Word).toNat = v.toNat := by bv_omega
  have index (v r : Byte) : (v + r).toNat = (v.toNat + r.toNat) % 256 := BitVec.toNat_add v r
  have offset (a : Word) (r : Byte) : (a + r.setWidth 16).toNat = (a.toNat + r.toNat) % 65536 := by
    rw [BitVec.toNat_add, byte]
  refine ⟨byte b, ?zpx, ?zpy, rfl, offset w _, offset w _, ?izx, ?izy, rfl, fun _ => rfl⟩
  case zpx => exact (byte _).trans (index b _)
  case zpy => exact (byte _).trans (index b _)
  case izx =>
    rw [← index]
    exact toNat_zeroPagePointer (b + s.cpu.x) s
  case izy =>
    rw [← show (zeroPagePointer b s).toNat = pointer b.toNat from toNat_zeroPagePointer b s]
    exact offset _ _

end Sys2Proof.Machine

/-!
PROOFS. The statements of 40_load_store_transfer.md: what the loads, the stores and the transfers complete with, and their bytes.
-/

namespace Sys2Proof.Machine

/-! ## How a load, a transfer and a store end -/

/-- `withZN` in the words of R24: Z is r = 0, N is bit 7 of r. -/
theorem Status.withZN_eq_flagsZN (p : Status) (r : Byte) : p.withZN r = flagsZN p r := by
  rw [Status.withZN, flagsZN, BitVec.msb_eq_getLsbD_last]
  rfl

/-- `setZN(r)` and the fetches of `n` bytes change P and PC alone (R14, R24, R92). -/
theorem State.setZN_advance (s : State) (r : Byte) (n : Nat) :
    (s.setZN r).advance n =
      { s with cpu := { s.cpu with p := flagsZN s.cpu.p r, pc := s.cpu.pc + BitVec.ofNat 16 n } } := by
  rw [← Status.withZN_eq_flagsZN]
  rfl

/-- A store and the fetches of `n` bytes: the eager read if there is one, the write, and PC past the instruction (R92, R103, R133). -/
theorem storeMem_advance (m : MemMode) (v : Byte) (n : Nat) (s : State) :
    (storeMem m v s).advance n =
      { storeMem m v s with cpu := { (storeMem m v s).cpu with pc := s.cpu.pc + BitVec.ofNat 16 n } } := by
  have pc : (storeMem m v s).cpu.pc = s.cpu.pc := by rw [storeMem_eq, cpuWrite_pc, eagerRead_cpu]
  rw [State.advance, pc, State.setPC]

/-! ## Loads (R130 to R132) -/

/-- Settles O35: the read leaves the CPU alone, so what is set on top of it is set on the registers from before. -/
theorem loadsComplete : Obligations.LoadsComplete := by
  refine ⟨fun src s => ?completes, ?ldaBytes, ?ldxLdyBytes⟩
  case completes =>
    simp only [exec, execLda, execLdx, execLdy, State.setZN_advance, State.setA, State.setX, State.setY, readSource_cpu]
    exact ⟨rfl, rfl, rfl⟩
  case ldaBytes => exact fun _ _ => ⟨rfl, rfl, rfl, rfl, rfl, rfl, rfl, rfl⟩
  case ldxLdyBytes => exact fun _ _ => ⟨rfl, rfl, rfl, rfl, rfl, rfl, rfl, rfl, rfl, rfl⟩

/-! ## Stores (R133 to R135) -/

/-- Settles O36: each store is `storeMem` of its register, and then PC past it. -/
theorem storesComplete : Obligations.StoresComplete := by
  refine ⟨fun dst s => ?completes, ?bytes⟩
  case completes =>
    simp only [exec, execSta, execStx, execSty, storeMem_advance]
    exact ⟨rfl, rfl, rfl⟩
  case bytes => exact fun _ _ => ⟨rfl, rfl, rfl, rfl, rfl, rfl, rfl, rfl, rfl, rfl, rfl, rfl, rfl⟩

/-! ## Transfers (R136 to R141) -/

/-- Settles O37: the five that set Z and N end as `State.setZN_advance` says, TXS with SP and PC alone. -/
theorem transfersComplete : Obligations.TransfersComplete := by
  refine ⟨fun s => ?completes, rfl, rfl, rfl, rfl, rfl, rfl⟩
  case completes =>
    simp only [exec, execTax, execTay, execTxa, execTya, execTsx, execTxs, State.setZN_advance]
    exact ⟨rfl, rfl, rfl, rfl, rfl, rfl⟩

end Sys2Proof.Machine

/-!
PROOFS. The statements of 41_arithmetic_logic.md: what the arithmetic, the logic, the compares, the increments and the decrements
complete with, and their bytes.
-/

namespace Sys2Proof.Machine

/-! ## The add core (R146) -/

/-- The sign bit as arithmetic. -/
theorem toNat_div_128 (b : Byte) : b.toNat / 128 = b.msb.toNat := by
  have := b.isLt
  rw [BitVec.msb_eq_decide, Bool.toNat, Bool.cond_decide]
  split <;> omega

/-- `majority` counts its ones (R11). -/
theorem majority_eq_decide (a b c : Bool) : majority a b c = decide (2 ≤ a.toNat + b.toNat + c.toNat) := by
  revert a b c
  decide

theorem addCore_r (rule : CarryRule) (a b : Byte) (cin : Bool) :
    (addCore rule a b cin).r = BitVec.ofNat 8 (a.toNat + b.toNat + cin.toNat) := rfl

/-- The carry by the sum (D1). -/
theorem addCore_c_sum9 (a b : Byte) (cin : Bool) :
    (addCore .sum9 a b cin).c = decide (255 < a.toNat + b.toNat + cin.toNat) := rfl

/-- The carry by the number of ones among the two sign bits and the carry in (D1). -/
theorem addCore_c_majority (a b : Byte) (cin : Bool) :
    (addCore .majority a b cin).c = decide (2 ≤ a.toNat / 128 + b.toNat / 128 + cin.toNat) := by
  rw [toNat_div_128, toNat_div_128]
  exact majority_eq_decide a.msb b.msb cin

/-- The signed sum leaves -128 to 127 exactly where the operands' sign bits agree and the result's differs. -/
theorem addCore_v (rule : CarryRule) (a b : Byte) (cin : Bool) :
    (addCore rule a b cin).v = decide (a.toInt + b.toInt + cin.toNat < -128 ∨ 127 < a.toInt + b.toInt + cin.toNat) := by
  have := a.isLt
  have := b.isLt
  have := cin.toNat_le
  rw [Bool.eq_iff_iff]
  simp only [addCore, BitVec.msb_eq_decide, BitVec.toInt_eq_toNat_cond, BitVec.toNat_ofNat, Bool.and_eq_true, beq_iff_eq,
    bne_iff_ne, ne_eq, decide_eq_decide, decide_eq_true_eq]
  omega

/-! ## Subtraction by the add core: the complement of M, and a carry in of 1 (R151; D2) -/

theorem toNat_complement (m : Byte) : (255 - m).toNat = 255 - m.toNat := by
  bv_omega

theorem toInt_complement (m : Byte) : (255 - m).toInt = -1 - m.toInt := by
  have := m.isLt
  rw [BitVec.toInt_eq_toNat_cond, BitVec.toInt_eq_toNat_cond, toNat_complement]
  omega

theorem addCore_complement_r (rule : CarryRule) (a m : Byte) :
    (addCore rule a (255 - m) true).r = BitVec.ofNat 8 (a.toNat + 256 - m.toNat) := by
  have := m.isLt
  have sum : a.toNat + (255 - m.toNat) + 1 = a.toNat + 256 - m.toNat := by omega
  rw [addCore_r, toNat_complement, Bool.toNat_true, sum]

/-- By the sum, the carry says that nothing was borrowed. -/
theorem addCore_complement_c_sum9 (a m : Byte) : (addCore .sum9 a (255 - m) true).c = decide (m.toNat ≤ a.toNat) := by
  have := m.isLt
  rw [addCore_c_sum9, toNat_complement, Bool.toNat_true, decide_eq_decide]
  omega

/-- With a carry in of 1, one sign bit is enough for the majority. -/
theorem addCore_complement_c_majority (a m : Byte) :
    (addCore .majority a (255 - m) true).c = (a.getLsbD 7 || !m.getLsbD 7) := by
  have := m.isLt
  rw [addCore_c_majority, toNat_complement, Bool.toNat_true, ← msb_eq_bit7, ← msb_eq_bit7, BitVec.msb_eq_decide,
    BitVec.msb_eq_decide, ← decide_not, ← Bool.decide_or, decide_eq_decide]
  omega

theorem addCore_complement_v (rule : CarryRule) (a m : Byte) :
    (addCore rule a (255 - m) true).v = decide (a.toInt - m.toInt < -128 ∨ 127 < a.toInt - m.toInt) := by
  rw [addCore_v, toInt_complement, Bool.toNat_true, decide_eq_decide]
  omega

/-! ## What the flags become, and how an instruction ends -/

theorem Status.withAdd_eq (p : Status) (q : AddResult) : p.withAdd q = { flagsZN p q.r with c := q.c, v := q.v } := by
  rw [← Status.withZN_eq_flagsZN]
  rfl

/-- A bit of a byte as arithmetic. -/
theorem getLsbD_eq_decide (b : Byte) (k : Nat) : b.getLsbD k = decide (b.toNat / 2 ^ k % 2 = 1) :=
  Nat.testBit_eq_decide_div_mod_eq

theorem Status.withBit_eq (p : Status) (a m : Byte) :
    p.withBit a m =
      { p with z := decide (a &&& m = 0), n := decide (128 ≤ m.toNat), v := decide (64 ≤ m.toNat % 128) } := by
  have := m.isLt
  have bit7 : m.getLsbD 7 = decide (128 ≤ m.toNat) := by
    rw [getLsbD_eq_decide, decide_eq_decide]
    omega
  have bit6 : m.getLsbD 6 = decide (64 ≤ m.toNat % 128) := by
    rw [getLsbD_eq_decide, decide_eq_decide]
    omega
  rw [Status.withBit, bit7, bit6]
  rfl

theorem Status.withCompare_eq (p : Status) (reg m : Byte) :
    p.withCompare reg m =
      { p with
        c := decide (m.toNat ≤ reg.toNat)
        z := decide (reg = m)
        n := (BitVec.ofNat 8 (reg.toNat + 256 - m.toNat)).getLsbD 7 } := by
  have difference : reg - m = BitVec.ofNat 8 (reg.toNat + 256 - m.toNat) := by bv_omega
  rw [Status.withCompare, difference, msb_eq_bit7]
  rfl

theorem add_one_eq_ofNat (b : Byte) : b + 1 = BitVec.ofNat 8 (b.toNat + 1) := by bv_omega

theorem sub_one_eq_ofNat (b : Byte) : b - 1 = BitVec.ofNat 8 (b.toNat + 255) := by bv_omega

/-- The flags and the fetches of `n` bytes change P and PC alone (R92). -/
theorem State.setP_advance (s : State) (p : Status) (n : Nat) :
    (s.setP p).advance n = { s with cpu := { s.cpu with p := p, pc := s.cpu.pc + BitVec.ofNat 16 n } } := rfl

/-- INC and DEC after their read and write: P and PC, on the NMI slot that the write left (R66, R92; D8). -/
theorem modifyMem_setZN_advance (m : MemMode) (f : Byte → Byte) (r : Byte) (n : Nat) (s : State) :
    ((modifyMem m f s).2.setZN r).advance n =
      { (modifyMem m f s).2 with cpu := { (modifyMem m f s).2.cpu with
        p := flagsZN s.cpu.p r, pc := s.cpu.pc + BitVec.ofNat 16 n } } := by
  have pc : (modifyMem m f s).2.cpu.pc = s.cpu.pc := by rw [modifyMem_eq, cpuWrite_pc, cpuRead_cpu]
  rw [State.setZN_advance, modifyMem_cpu_p, pc]

/-! ## ADC and SBC (R150, R151) -/

/-- Settles O38: the flags are the add core's, whose carry follows the rule of D1. -/
theorem adcCompletes : Obligations.AdcCompletes := by
  refine ⟨fun src s => ?_, fun _ _ => ⟨rfl, rfl, rfl, rfl, rfl, rfl, rfl, rfl⟩⟩
  simp only [exec, execAdc, State.setP_advance, State.setA, readSource_cpu, Status.withAdd_eq, addCore_r, addCore_v]
  cases s.params.adcCarryRule with
  | sum9 => rw [addCore_c_sum9]; rfl
  | majority => rw [addCore_c_majority]; rfl

/-- Settles O39: SBC is the add core on the complement of M with a carry in of 1. -/
theorem sbcCompletes : Obligations.SbcCompletes := by
  refine ⟨fun src s => ?_, fun _ _ => ⟨rfl, rfl, rfl, rfl, rfl, rfl, rfl, rfl⟩⟩
  simp only [exec, execSbc, State.setP_advance, State.setA, readSource_cpu, Status.withAdd_eq, addCore_complement_r,
    addCore_complement_v]
  cases s.params.adcCarryRule with
  | sum9 => rw [addCore_complement_c_sum9]; rfl
  | majority => rw [addCore_complement_c_majority]; rfl

/-! ## Logic (R152 to R155) -/

/-- Settles O40: the read leaves the CPU alone, so A, Z, N and PC are set on the registers from before. -/
theorem logicCompletes : Obligations.LogicCompletes := by
  refine ⟨fun src s => ?completes, ?andBytes, ?oraBytes, ?eorBytes⟩
  case completes =>
    simp only [exec, execAnd, execOra, execEor, State.setZN_advance, State.setA, readSource_cpu]
    exact ⟨rfl, rfl, rfl⟩
  all_goals exact fun _ _ => ⟨rfl, rfl, rfl, rfl, rfl, rfl, rfl, rfl⟩

/-- Settles O41, by the flags of BIT as arithmetic of M. -/
theorem bitTestCompletes : Obligations.BitTestCompletes := by
  refine ⟨fun src s => ?_, fun _ _ => ⟨rfl, rfl⟩⟩
  simp only [exec, execBit, readMem, State.setP_advance, cpuRead_cpu, Status.withBit_eq]
  rfl

/-! ## Compares (R147, R156 to R158) -/

/-- Settles O42: the three are one comparison, each with its own register. -/
theorem comparesComplete : Obligations.ComparesComplete := by
  refine ⟨fun src s => ?completes, ?cmpBytes, ?cpxBytes, ?cpyBytes⟩
  case completes =>
    simp only [exec, execCmp, execCpx, execCpy, State.setP_advance, readSource_cpu, Status.withCompare_eq]
    exact ⟨rfl, rfl, rfl⟩
  case cmpBytes => exact fun _ _ => ⟨rfl, rfl, rfl, rfl, rfl, rfl, rfl, rfl⟩
  case cpxBytes => exact fun _ _ => ⟨rfl, rfl, rfl⟩
  case cpyBytes => exact fun _ _ => ⟨rfl, rfl, rfl⟩

/-! ## Increments and decrements (R159 to R164) -/

/-- Settles O43, by how a read-modify-write that sets Z and N ends. -/
theorem incDecMemoryComplete : Obligations.IncDecMemoryComplete := by
  refine ⟨fun dst s => ?completes, ?incBytes, ?decBytes⟩
  case completes =>
    simp only [exec, execInc, execDec, modifyMem_setZN_advance, add_one_eq_ofNat, sub_one_eq_ofNat]
    exact ⟨rfl, rfl⟩
  all_goals exact fun _ _ => ⟨rfl, rfl, rfl, rfl⟩

/-- Settles O44: the register moves by one, and then Z, N and PC follow. -/
theorem incDecIndexComplete : Obligations.IncDecIndexComplete := by
  refine ⟨fun s => ?_, rfl, rfl, rfl, rfl⟩
  simp only [exec, execInx, execIny, execDex, execDey, State.setZN_advance, add_one_eq_ofNat, sub_one_eq_ofNat]
  exact ⟨rfl, rfl, rfl, rfl⟩

end Sys2Proof.Machine

/-!
PROOFS. The statements of 42_shift_rotate.md: what the shifts and the rotates complete with on A and on memory, and their bytes.
-/

namespace Sys2Proof.Machine

/-! ## What the flags become, and how a shift ends -/

theorem Status.withShift_eq (p : Status) (out : Bool) (r : Byte) : p.withShift out r = { flagsZN p r with c := out } := by
  rw [← Status.withZN_eq_flagsZN]
  rfl

theorem modifyMem_cpu_pc (m : MemMode) (f : Byte → Byte) (s : State) : (modifyMem m f s).2.cpu.pc = s.cpu.pc := by
  rw [modifyMem_eq, cpuWrite_pc, cpuRead_cpu]

/-- What the four meanings share: the target becomes `r` of the old carry and its byte, C becomes `out` of that byte (R180 to R183). -/
def shiftTarget (dst : Target) (r : Bool → Byte → Byte) (out : Byte → Bool) (s : State) : State :=
  let q := modifyTarget dst (r s.cpu.p.c) s
  (q.2.setP (q.2.cpu.p.withShift (out q.1) (r s.cpu.p.c q.1))).advance dst.mode.length

/-- On A: A, P and PC change, and nothing else (R94). -/
theorem shiftTarget_acc (r : Bool → Byte → Byte) (out : Byte → Bool) (s : State) :
    shiftTarget .acc r out s =
      { s with cpu := { s.cpu with
          a := r s.cpu.p.c s.cpu.a
          p := { flagsZN s.cpu.p (r s.cpu.p.c s.cpu.a) with c := out s.cpu.a }
          pc := s.cpu.pc + 1 } } := by
  rw [← Status.withShift_eq]
  rfl

/-- On memory: P and PC, on what the read and the write left (R66, R92; D8). -/
theorem shiftTarget_mem (m : MemMode) (r : Bool → Byte → Byte) (out : Byte → Bool) (s : State) :
    let q := modifyMem m (r s.cpu.p.c) s
    shiftTarget (.mem m) r out s =
      { q.2 with cpu := { q.2.cpu with
          p := { flagsZN s.cpu.p (r s.cpu.p.c q.1) with c := out q.1 }
          pc := s.cpu.pc + BitVec.ofNat 16 m.mode.length } } := by
  intro q
  have ends : shiftTarget (.mem m) r out s =
      (q.2.setP (q.2.cpu.p.withShift (out q.1) (r s.cpu.p.c q.1))).advance m.mode.length := rfl
  have p : q.2.cpu.p = s.cpu.p := modifyMem_cpu_p m _ s
  have pc : q.2.cpu.pc = s.cpu.pc := modifyMem_cpu_pc m _ s
  rw [ends, State.setP_advance, p, pc, Status.withShift_eq]

/-- An instruction that is `shiftTarget` completes as R94 says in both of its forms. -/
theorem shiftCompletes_of_exec {mk : Target → Instr} {r : Bool → Byte → Byte} {out : Byte → Bool}
    (exec_eq : ∀ dst s, exec (mk dst) s = .next (shiftTarget dst r out s))
    (length_eq : ∀ dst, (mk dst).length = dst.mode.length) : ShiftCompletes mk r out := by
  refine ⟨fun s => ?acc, fun m s => ?mem⟩
  case acc =>
    rw [exec_eq, shiftTarget_acc, nextPc, length_eq]
    rfl
  case mem =>
    rw [exec_eq, shiftTarget_mem, nextPc, length_eq]
    rfl

/-! ## The four meanings (R180 to R183) -/

theorem exec_asl (dst : Target) (s : State) :
    exec (.asl dst) s = .next (shiftTarget dst (fun _ m => BitVec.ofNat 8 (2 * m.toNat)) (fun m => m.getLsbD 7) s) := by
  simp only [← shiftLeft_ofNat, ← msb_eq_bit7]
  rfl

theorem exec_lsr (dst : Target) (s : State) :
    exec (.lsr dst) s = .next (shiftTarget dst (fun _ m => BitVec.ofNat 8 (m.toNat / 2)) (fun m => m.getLsbD 0) s) := by
  simp only [← shiftRight_ofNat]
  rfl

theorem exec_rol (dst : Target) (s : State) :
    exec (.rol dst) s =
      .next (shiftTarget dst (fun c m => BitVec.ofNat 8 (2 * m.toNat + c.toNat)) (fun m => m.getLsbD 7) s) := by
  simp only [← rotateLeft_ofNat, ← msb_eq_bit7]
  rfl

theorem exec_ror (dst : Target) (s : State) :
    exec (.ror dst) s =
      .next (shiftTarget dst (fun c m => BitVec.ofNat 8 (m.toNat / 2 + 128 * c.toNat)) (fun m => m.getLsbD 0) s) := by
  simp only [← rotateRight_ofNat]
  rfl

/-- Settles O45: each of the four is `shiftTarget`, with its result as arithmetic and the bit it shifts out. -/
theorem shiftsComplete : Obligations.ShiftsComplete := by
  refine ⟨shiftCompletes_of_exec exec_asl fun _ => rfl, shiftCompletes_of_exec exec_lsr fun _ => rfl,
    shiftCompletes_of_exec exec_rol fun _ => rfl, shiftCompletes_of_exec exec_ror fun _ => rfl,
    rfl, ?aslBytes, rfl, ?lsrBytes, rfl, ?rolBytes, rfl, ?rorBytes⟩
  all_goals exact fun _ _ => ⟨rfl, rfl, rfl, rfl⟩

end Sys2Proof.Machine

/-!
PROOFS. The statements of 43_control_transfer.md: what JMP, JSR, RTS and the branches complete with, their bytes, and the return from a call.
-/

namespace Sys2Proof.Machine

/-- `hi:lo` of R11 is the two bytes joined. -/
theorem word_eq_append (hi lo : Byte) : word hi lo = hi ++ lo := by
  have := (hi ++ lo : Word).isLt
  refine BitVec.eq_of_toNat_eq ?_
  rw [toNat_append_byte] at this ⊢
  rw [word, BitVec.toNat_ofNat]
  omega

/-! ## JMP (R190) -/

@[simp] theorem jumpAddress_cpu (target : JumpTarget) (s : State) : (jumpAddress target s).2.cpu = s.cpu := by
  rw [jumpAddress_state]; rfl
@[simp] theorem jumpAddress_params (target : JumpTarget) (s : State) : (jumpAddress target s).2.params = s.params := by
  rw [jumpAddress_state]; rfl

/-- The pointer of IND: low byte first, its high byte at the next address, with no page wrap (R100). -/
theorem jumpAddress_ind (ptr : Word) (s : State) :
    jumpAddress (.ind ptr) s =
      (word (cpuRead (ptr + 1) (cpuRead ptr s).2).1 (cpuRead ptr s).1, (cpuRead (ptr + 1) (cpuRead ptr s).2).2) := by
  rw [word_eq_append]
  rfl

/-- JMP reads its pointer, if it has one, and its target, if reads are eager, and sets PC alone of the CPU (R103, R190). -/
theorem exec_jmp (target : JumpTarget) (s : State) :
    let ea := (jumpAddress target s).1
    let u := (jumpAddress target s).2
    exec (.jmp target) s =
      .next { (if s.params.eagerOperandRead then (cpuRead ea u).2 else u) with cpu := { s.cpu with pc := ea } } := by
  simp only [exec, execJmp, State.setPC, eagerRead_cpu, jumpAddress_cpu]
  rw [eagerRead, jumpAddress_params]

/-- Settles O46, by what JMP does in either form and by how IND reads its pointer. -/
theorem jumpCompletes : Obligations.JumpCompletes := by
  intro w s
  refine ⟨⟨exec_jmp (.abs w) s, ?ind⟩, rfl, rfl⟩
  case ind => rw [exec_jmp, jumpAddress_ind]

/-! ## JSR and RTS (R191, R192) -/

theorem lo8_ofNat (n : Nat) : lo8 (BitVec.ofNat 16 n) = BitVec.ofNat 8 n := by
  refine BitVec.eq_of_toNat_eq ?_
  rw [toNat_lo8, BitVec.toNat_ofNat, BitVec.toNat_ofNat]
  omega

theorem hi8_ofNat (n : Nat) : hi8 (BitVec.ofNat 16 n) = BitVec.ofNat 8 (n / 256) := by
  refine BitVec.eq_of_toNat_eq ?_
  rw [toNat_hi8, BitVec.toNat_ofNat, BitVec.toNat_ofNat]
  omega

/-- Settles O47, by the word JSR pushes and the word RTS pops. -/
theorem subroutineCallsComplete : Obligations.SubroutineCallsComplete := by
  refine ⟨fun w s => ⟨?jsr, rfl⟩, fun s => ?rts, rfl⟩
  case jsr =>
    have last : s.cpu.pc + 2 = BitVec.ofNat 16 (s.cpu.pc.toNat + 2) := by bv_omega
    simp only [exec, execJsr, pushWord_eq, eagerRead_cpu, eagerRead_ram, last, hi8_ofNat, lo8_ofNat]
    rfl
  case rts =>
    simp only [exec, execRts, popWord_eq, word_eq_append]
    rfl

/-- Popping a pushed word gives it back and restores the CPU, over the ram the pushes left (R60, R61). -/
theorem popWord_pushWord (w : Word) {s : State} (wf : s.ram.wf = true) :
    popWord (pushWord w s) = (w, { pushWord w s with cpu := s.cpu }) := by
  have pops : popMany 2 (pushWord w s) = ([lo8 w, hi8 w], { pushWord w s with cpu := s.cpu }) :=
    popMany_pushAll [hi8 w, lo8 w] wf (Nat.le_add_left 2 254)
  simp only [popMany, Prod.mk.injEq, List.cons.injEq, and_true] at pops
  obtain ⟨⟨lo, hi⟩, state⟩ := pops
  rw [popWord, lo, hi, state, hi8_append_lo8]

/-- RTS does not look at the PC it replaces (R192). -/
theorem exec_rts_setPC (q : Word) (s : State) :
    exec .rts (s.setPC q) = .next ((popWord s).2.setPC ((popWord s).1 + 1)) := rfl

/-- Settles O48: RTS pops the word JSR pushed, f + 2, and adds one. -/
theorem returnFollowsCall : Obligations.ReturnFollowsCall := by
  intro w q s t wf call
  obtain rfl : (pushWord (s.cpu.pc + 2) (eagerRead w s)).setPC w = t := Host.Outcome.next.inj call
  have wf' : (eagerRead w s).ram.wf = true := by rwa [eagerRead_ram]
  have after : s.cpu.pc + 2 + 1 = s.cpu.pc + 3 := by bv_omega
  have returned := exec_rts_setPC q (pushWord (s.cpu.pc + 2) (eagerRead w s))
  rw [popWord_pushWord _ wf', after, pushWord_eq, eagerRead_cpu] at returned
  rw [pushWord_eq, eagerRead_cpu]
  exact returned

/-! ## The branches (R193 to R201) -/

/-- `sext_16` as arithmetic: bit 7 fills the high byte. -/
theorem signExtend_eq_ite (b : Byte) :
    b.signExtend 16 = if b.getLsbD 7 then b.setWidth 16 + 0xFF00 else b.setWidth 16 := by
  revert b
  decide

/-- A meaning that is `branch` on its condition completes as R193 says. -/
theorem branchCompletes_of_exec {mk : Byte → Instr} {taken : Status → Bool}
    (exec_eq : ∀ b s, exec (mk b) s = .next (branch (taken s.cpu.p) b s)) : BranchCompletes mk taken := by
  intro b s
  rw [exec_eq, branch_eq, signExtend_eq_ite]
  rfl

/-- Settles O49: each meaning is `branch` on its own condition. -/
theorem branchesComplete : Obligations.BranchesComplete := by
  refine ⟨?_, ?_, ?_, ?_, ?_, ?_, ?_, ?_, fun _ => ⟨rfl, rfl, rfl, rfl, rfl, rfl, rfl, rfl⟩⟩
  all_goals exact branchCompletes_of_exec fun _ _ => rfl

end Sys2Proof.Machine

/-!
PROOFS. The statements of 44_stack_flags_system.md: what the stack, flag, no-op and system instructions complete with, and their bytes.
-/

namespace Sys2Proof.Machine

/-! ## BRK and RTI (R220, R223) -/

/-- In the PRG window `wordAt` is two bytes of the image (R55, R58). -/
theorem wordAt_of_prg {a : Word} (s : State) (h : 0x8000 ≤ a.toNat) (h1 : 0x8000 ≤ (a + 1).toNat) :
    wordAt s a = s.cart.prg.read (prgIndex s.cart (a + 1)) ++ s.cart.prg.read (prgIndex s.cart a) := by
  rw [wordAt, byteAt, byteAt, cpuRead_of_prg s h, cpuRead_of_prg s h1]

/-- Settles O53: BRK is the shared handler entry with B set, and its vector $FFFE lies in the PRG window. -/
theorem brkCompletes : Obligations.BrkCompletes := by
  refine ⟨fun s => ?completes, rfl⟩
  have low : 0x8000 ≤ brkVector.toNat := by decide
  have high : 0x8000 ≤ (brkVector + 1).toNat := by decide
  rw [exec, execBrk, enterInterrupt_eq _ _ _ s low high, ← wordAt_of_prg s low high]
  rfl

/-- Settles O54, by what returning from a handler pops. -/
theorem rtiCompletes : Obligations.RtiCompletes := by
  refine ⟨fun s => ?completes, rfl⟩
  simp only [exec, execRti, returnFromInterrupt_eq, word_eq_append]
  rfl

/-! ## The stack instructions (R210 to R213) -/

/-- Settles O50, by what a push and a pop change; PLA then sets Z and N from the byte popped. -/
theorem stackInstructionsComplete : Obligations.StackInstructionsComplete := by
  refine ⟨fun s => ?completes, rfl, rfl, rfl, rfl⟩
  simp only [exec, execPha, execPla, execPhp, execPlp, push_eq, pop_eq, State.setZN_advance, State.setP_advance]
  exact ⟨rfl, rfl, rfl, rfl⟩

/-! ## The flag instructions (R214 to R218) -/

/-- Settles O51: each of the five sets P, one flag of it changed, and fetches one byte. -/
theorem flagInstructionsComplete : Obligations.FlagInstructionsComplete := by
  refine ⟨fun s => ?completes, rfl, rfl, rfl, rfl, rfl⟩
  simp only [exec, execClc, execSec, execCli, execSei, execClv, State.setP_advance]
  exact ⟨rfl, rfl, rfl, rfl, rfl⟩

/-! ## The no-ops (R219, R221, R222) -/

/-- The fetch of one byte changes PC alone, mod 2^16 (R32, R92). -/
theorem State.advance_one (s : State) :
    s.advance 1 = { s with cpu := { s.cpu with pc := BitVec.ofNat 16 (s.cpu.pc.toNat + 1) } } := by
  have next : s.cpu.pc + 1 = BitVec.ofNat 16 (s.cpu.pc.toNat + 1) := by bv_omega
  rw [← next]
  rfl

/-- Settles O52: each of the three is the fetch of its byte and nothing more. -/
theorem noOpsComplete : Obligations.NoOpsComplete := by
  refine ⟨fun s => ?completes, rfl, rfl, rfl⟩
  rw [← State.advance_one]
  exact ⟨rfl, rfl, rfl⟩

end Sys2Proof.Machine

/-!
PROOFS. The statement of 45_unofficial.md: what every unofficial instruction does, and the bytes of every form.
-/

namespace Sys2Proof

/-! ## The starred cells of the table (R104, R242) -/

/-- The opcode byte alone fixes whether a cell of the table is starred: the 256 bytes are evaluated at free operands (R104, R106). -/
theorem official_decodeFields (op b : Byte) (w : Word) : (decodeFields op b w).official = (decodeFields op 0 0).official := by
  have cells : ∀ op : Byte, (decodeFields op b w).official = (decodeFields op 0 0).official := of_decide_eq_true rfl
  exact cells op

/-- The encoder against the starred cells: an instruction is unofficial exactly when its opcode byte is starred (R106, R242). -/
theorem opcodeUnofficial_of_opcode {i : Instr} {op : Byte} (h : i.opcode = some op) : opcodeUnofficial op = !i.official := by
  obtain ⟨b, w, rfl⟩ := decodeFields_of_opcode h
  rw [opcodeUnofficial, official_decodeFields op b w]

theorem encode_kil {op : Byte} (h : op ∈ kilBytes) : encode (.kil op) = some [op] :=
  encode_of_opcode (if_pos (List.contains_iff_mem.mpr h))

theorem encode_nopUnofficial {op : Byte} {operand : Skipped} (h : op ∈ operand.mode.nopBytes) :
    encode (.nopUnofficial op operand) = some (op :: (Instr.nopUnofficial op operand).operandBytes) :=
  encode_of_opcode (if_pos (List.contains_iff_mem.mpr h))

end Sys2Proof

namespace Sys2Proof.Machine

/-- The encoder gives the starred cells of R104: the six instructions with all seven memory modes, then KIL and the NOPs byte by byte, then the rest. -/
theorem unofficialEncodings : UnofficialEncodings := by
  refine ⟨?slo, ?rla, ?sre, ?rra, ?dcp, ?isc, fun _ => encode_kil, fun _ => encode_nopUnofficial (operand := .imp), fun b w =>
    ⟨fun _ => encode_nopUnofficial (operand := .imm b), fun _ => encode_nopUnofficial (operand := .mem (.zrp b)),
      fun _ => encode_nopUnofficial (operand := .mem (.zpx b)), rfl,
      fun _ => encode_nopUnofficial (operand := .mem (.abx w)), ?others⟩⟩
  case others =>
    exact ⟨rfl, rfl, rfl, rfl, rfl, rfl, rfl, rfl, rfl, rfl, rfl, rfl, rfl, rfl, rfl, rfl, rfl, rfl, rfl, rfl, rfl, rfl, rfl, rfl⟩
  all_goals exact fun _ _ => ⟨rfl, rfl, rfl, rfl, rfl, rfl, rfl⟩

/-! ## Skip or halt (R240, R241) -/

/-- Every unofficial instruction has the one meaning `unofficial`; no other label does anything (R106). -/
theorem exec_of_unofficial {i : Instr} (h : i.official = false) (s : State) : exec i s = .next (unofficial i s) := by
  cases i with
  | kil _ | nopUnofficial _ _ | slo _ | rla _ | sre _ | rra _ | sax _ | lax _ | dcp _ | isc _ | anc _ _ | alr _ | arr _ | xaa _
  | axs _ | ahx _ | tas _ | shy _ | shx _ | las _ | usbc _ => rfl
  | _ => cases h

/-- An instruction with an opcode byte halts after the opcode fetch if the core halts on that byte, and else skips its bytes (log 7). -/
theorem unofficial_of_opcode {i : Instr} {op : Byte} (h : i.opcode = some op) (s : State) :
    unofficial i s = if haltsOn s op then (s.advance 1).halt else s.advance i.length := by
  rw [unofficial, h]

/-- An unofficial byte halts the core exactly when it is in `HALT_OPCODES` (R240, R254). -/
theorem haltsOn_iff_mem {op : Byte} (h : opcodeUnofficial op = true) (s : State) : haltsOn s op = true ↔ op ∈ s.params.haltOpcodes := by
  rw [haltsOn, h, Bool.and_true, List.contains_iff_mem]

/-- Settles O56: an unofficial instruction's byte is unofficial, so membership in `HALT_OPCODES` alone decides between halting and skipping. -/
theorem unofficialOpcodesComplete : Obligations.UnofficialOpcodesComplete := by
  refine ⟨fun i s unstarred wf => ?completes, unofficialEncodings⟩
  obtain ⟨wf_eq, _⟩ := lengthByMode i
  obtain ⟨op, opcode⟩ := Option.isSome_iff_exists.mp (wf_eq.symm.trans wf)
  have starred : opcodeUnofficial op = true := by rw [opcodeUnofficial_of_opcode opcode, unstarred, Bool.not_false]
  have halts_iff := haltsOn_iff_mem starred s
  rw [exec_of_unofficial unstarred, unofficial_of_opcode opcode]
  refine ⟨op, opcode, fun outside => ?skips, fun inside => ?halts⟩
  case skips =>
    rw [if_neg (mt halts_iff.mp outside)]
    rfl
  case halts =>
    rw [if_pos (halts_iff.mpr inside)]
    rfl

end Sys2Proof.Machine

/-!
PROOFS. The statements of 60_exceptions.md: a halted core, the host's choice of ticks, one CPU tick, NMI entry and the return from a handler,
the PPU's registers, and the PPU tick.
-/

namespace Sys2Proof.Machine

/-! ## The runaway guard, and the CPU tick by the CPU's control state (R252 to R254) -/

/-- The runaway guard can only set the halted flag (R252). -/
theorem runawayGuard_eq (s : State) :
    runawayGuard s = { s with cpu := { s.cpu with halted := s.cpu.halted || decide (s.cpu.pc.toNat < 0x8000) } } := by
  unfold runawayGuard
  split
  · next low => rw [decide_eq_true low, Bool.or_true]; rfl
  · next high => rw [decide_eq_false high, Bool.or_false]

theorem cpuTick_of_halted {s : State} (halted : s.cpu.halted = true) : cpuTick s = .next s := if_pos halted

theorem cpuTick_of_nmiPending {s : State} (running : s.cpu.halted = false) (pending : s.cpu.nmiPending = true) :
    cpuTick s = .next (runawayGuard (nmiEntry s)) := by
  rw [cpuTick, running, pending, if_neg Bool.false_ne_true, if_pos rfl]

theorem cpuTick_of_running {s : State} (running : s.cpu.halted = false) (noNmi : s.cpu.nmiPending = false) :
    cpuTick s = guarded (runInstruction s) := by
  rw [cpuTick, running, noNmi, if_neg Bool.false_ne_true, if_neg Bool.false_ne_true]

/-! ## A halted core (R35, R253, R306) -/

@[simp] theorem consumeChoice_cpu (s : State) : (consumeChoice s).cpu = s.cpu := by rw [consumeChoice_frame]

/-- Settles O12: a halted core's own tick changes nothing, and a PPU tick changes of the CPU only the NMI slot, which it never clears. -/
theorem haltedCoreDoesNothing : Obligations.HaltedCoreDoesNothing := by
  intro s halted
  refine ⟨cpuTick_of_halted halted, fun u hu => ?_⟩
  obtain ⟨t, htick, _, hstep⟩ := step_eq_consumeChoice s
  obtain rfl : consumeChoice t = u := Host.Outcome.next.inj (hstep.symm.trans hu)
  rw [consumeChoice_cpu]
  cases agent : nextAgent s with
  | cpu =>
    rw [agent, tick, cpuTick_of_halted halted] at htick
    obtain rfl := Host.Outcome.next.inj htick
    exact ⟨rfl, id⟩
  | ppu =>
    rw [agent] at htick
    obtain rfl : ppuTick s = t := Host.Outcome.next.inj htick
    refine ⟨by rw [ppuTick_frame], fun pending => ?_⟩
    rw [ppuTick_nmiPending, pending, Bool.true_or]

/-! ## The host's choice (R300, R301) -/

theorem consumeChoice_cons {s : State} {agent : Agent} {rest : List Agent} (queued : s.schedule = agent :: rest) :
    consumeChoice s = { s with schedule := rest } := by
  rw [consumeChoice, queued]

theorem consumeChoice_nil {s : State} (idle : s.schedule = []) :
    consumeChoice s = { s with ppuOwed := if s.ppuOwed = 0 then s.params.ppuTicksPerCpuTick else s.ppuOwed - 1 } := by
  rw [consumeChoice, idle]

theorem nextAgent_cons {s : State} {agent : Agent} {rest : List Agent} (queued : s.schedule = agent :: rest) :
    nextAgent s = agent := by
  rw [nextAgent, queued]

theorem nextAgent_nil {s : State} (idle : s.schedule = []) : nextAgent s = if s.ppuOwed = 0 then .cpu else .ppu := by
  rw [nextAgent, idle]

/-- A step is the tick of the agent chosen, in the same session, and then the host's record of it (R300). -/
theorem step_of_tick {s t : State} {agent : Agent} (chosen : nextAgent s = agent) (htick : tick agent s = .next t) :
    SameSession s t ∧ step s = .next (consumeChoice t) := by
  obtain ⟨u, hu, same, hstep⟩ := step_eq_consumeChoice s
  rw [chosen, htick] at hu
  obtain rfl := Host.Outcome.next.inj hu
  exact ⟨same, hstep⟩

/-- Settles O17: the agent chosen ticks, and since a tick changes no choice, the record uses up the choice the tick began with. -/
theorem hostChoosesTheTickingAgent : Obligations.HostChoosesTheTickingAgent := by
  intro s t
  refine ⟨fun agent rest queued htick => ?queued, fun idle owed htick => ?cpu, fun k idle owed htick => ?ppu⟩
  case queued =>
    obtain ⟨⟨_, _, schedule, _⟩, hstep⟩ := step_of_tick (nextAgent_cons queued) htick
    rw [hstep, consumeChoice_cons (schedule.trans queued)]
  case cpu =>
    have chosen : nextAgent s = .cpu := by rw [nextAgent_nil idle, if_pos owed]
    obtain ⟨⟨_, params, schedule, ppuOwed⟩, hstep⟩ := step_of_tick chosen htick
    rw [hstep, consumeChoice_nil (schedule.trans idle), if_pos (ppuOwed.trans owed), params]
  case ppu =>
    have chosen : nextAgent s = .ppu := by rw [nextAgent_nil idle, owed, if_neg k.succ_ne_zero]
    obtain ⟨⟨_, _, schedule, ppuOwed⟩, hstep⟩ := step_of_tick chosen htick
    rw [hstep, consumeChoice_nil (schedule.trans idle), ppuOwed, owed, if_neg k.succ_ne_zero, Nat.add_sub_cancel]

/-! ## One instruction (R92, R254) -/

/-- No fetch from the PRG window reads the aperture: past $FFFF the addresses wrap to ram (R33, R57). -/
theorem cpuRead_fetch_quiet {s : State} (window : 0x8000 ≤ s.cpu.pc.toNat) {k : Word} (near : k.toNat ≤ 2) :
    cpuRead (s.cpu.pc + k) s = (byteAt s (s.cpu.pc + k), s) := by
  have outside : (s.cpu.pc + k).toNat < 0x2000 ∨ 0x4000 ≤ (s.cpu.pc + k).toNat := by
    rw [BitVec.toNat_add]
    omega
  exact Prod.ext rfl (cpuRead_outside s outside)

/-- A fetch in the PRG window shows the three bytes from PC on and has no side effect (R57, R92). -/
theorem fetch_of_window {s : State} (window : 0x8000 ≤ s.cpu.pc.toNat) :
    fetch s = ([byteAt s s.cpu.pc, byteAt s (s.cpu.pc + 1), byteAt s (s.cpu.pc + 2)], s) := by
  have read0 := cpuRead_fetch_quiet window (k := 0#16) (by decide)
  have read1 := cpuRead_fetch_quiet window (k := 1) (by decide)
  have read2 := cpuRead_fetch_quiet window (k := 2) (by decide)
  rw [BitVec.add_zero] at read0
  simp only [fetch, read0, read1, read2, Prod.mk.injEq, true_and]
  split
  · rfl
  · split <;> rfl

/-- Settles O15: the fetch leaves the state as it is, so what is executed is the instruction decoded from the bytes at PC, in that state. -/
theorem stepRunsDecodedInstruction : Obligations.StepRunsDecodedInstruction := by
  intro s i rest chosen running noNmi window decoded
  have run : runInstruction s = exec i s := by rw [runInstruction, fetch_of_window window, decoded]
  have hstep : step s = consumed (guarded (exec i s)) := by
    rw [step, systemStep, chosen, tick, cpuTick_of_running running noNmi, run]
  refine ⟨hstep, fun u hu => ?_⟩
  rw [hstep, hu, guarded, consumed, runawayGuard_eq]

/-! ## NMI entry and the return from a handler (R220, R223, R260 to R263) -/

/-- Settles O16: NMI entry is the shared handler entry from $FFFA, with the slot cleared first, and the runaway guard looks at the
vector's PC. -/
theorem nmiIsTakenBeforeTheFetch : Obligations.NmiIsTakenBeforeTheFetch := by
  intro s running pending
  have low : 0x8000 ≤ nmiVector.toNat := by decide
  have high : 0x8000 ≤ (nmiVector + 1).toNat := by decide
  have vector : wordAt s 0xFFFA = _ := wordAt_of_prg s low high
  rw [cpuTick_of_nmiPending running pending, runawayGuard_eq, nmiEntry, enterInterrupt_eq _ _ _ _ low high, vector]
  simp only [State.setNmiPending, running, Bool.false_or]
  rfl

/-- Returning right after the entry of a handler restores the CPU but for B: PC is the return address, and the status byte popped is
the one the entry pushed, with B already set (R260, R263). -/
theorem returnFromInterrupt_enterInterrupt (ret : Word) {vector : Word} (b : Bool) {s : State} (wf : s.ram.wf = true)
    (low : 0x8000 ≤ vector.toNat) (high : 0x8000 ≤ (vector + 1).toNat) :
    returnFromInterrupt (enterInterrupt ret vector b s) =
      { enterInterrupt ret vector b s with cpu := { s.cpu with pc := ret, p := { s.cpu.p with b := b } } } := by
  have pops := popMany_pushAll [hi8 ret, lo8 ret, { s.cpu.p with b := b }.serialize] wf (Nat.le_add_left 3 253)
  have down2 : s.cpu.sp - 1 - 1 = s.cpu.sp - 2 := by bv_omega
  have down3 : s.cpu.sp - 2 - 1 = s.cpu.sp - 3 := by bv_omega
  have up2 : s.cpu.sp - 3 + 1 + 1 = s.cpu.sp - 3 + 2 := by bv_omega
  have up3 : s.cpu.sp - 3 + 2 + 1 = s.cpu.sp := by bv_omega
  have restored : s.cpu.sp - 3 + 3 = s.cpu.sp := by bv_omega
  simp only [List.length_cons, List.length_nil, popMany, pushAll, push_eq, pop_eq, down2, down3, up2, up3, List.reverse_cons,
    List.reverse_nil, List.nil_append, List.cons_append, Prod.mk.injEq, List.cons.injEq, and_true] at pops
  obtain ⟨status, lo, hi⟩ := pops
  rw [returnFromInterrupt_eq, enterInterrupt_eq _ _ _ _ low high]
  simp only [status, lo, hi, restored, deserialize_serialize, hi8_append_lo8]

/-- Settles O55: BRK and NMI entry are both the shared entry, and RTI is its return. -/
theorem returnUndoesEntry : Obligations.ReturnUndoesEntry := by
  intro s wf
  refine ⟨fun t entered => ?brk, ?nmi⟩
  case brk =>
    obtain rfl := Host.Outcome.next.inj entered
    exact congrArg Host.Outcome.next (returnFromInterrupt_enterInterrupt _ true wf (by decide) (by decide))
  case nmi =>
    exact congrArg Host.Outcome.next
      (returnFromInterrupt_enterInterrupt s.cpu.pc s.params.nmiPushesBreak (s := s.setNmiPending false) wf (by decide) (by decide))

/-! ## Register reads (R285 to R289, R294, R296) -/

/-- Settles O25: only registers 2 and 7 have an arm of their own. -/
theorem writeOnlyRegistersReadTheLatch : Obligations.WriteOnlyRegistersReadTheLatch := by
  rintro s n (rfl | rfl | rfl | rfl | rfl | rfl) <;> rfl

/-- The three status bits are bits 7, 6 and 5 (R285). -/
theorem toNat_statusByte (p : Ppu) :
    p.statusByte.toNat = 2 ^ 5 * (4 * p.vblank.toNat + 2 * p.sprite0Hit.toNat + p.spriteOverflow.toNat) := by
  unfold Ppu.statusByte
  cases p.vblank <;> cases p.sprite0Hit <;> cases p.spriteOverflow <;> rfl

/-- The byte register 2 returns: the status bits over the low five bits of the latch (R289). -/
theorem toNat_readStatus (s : State) :
    (readStatus s).1.toNat =
      128 * s.ppu.vblank.toNat + 64 * s.ppu.sprite0Hit.toNat + 32 * s.ppu.spriteOverflow.toNat + s.ppu.latch.toNat % 32 := by
  have low : (s.ppu.latch &&& 0x1F).toNat = s.ppu.latch.toNat % 32 :=
    (BitVec.toNat_and _ 0x1F).trans (Nat.and_two_pow_sub_one_eq_mod _ 5)
  have bound : s.ppu.latch.toNat % 32 < 2 ^ 5 := Nat.mod_lt _ (by decide)
  rw [readStatus, BitVec.toNat_or, low, toNat_statusByte, ← Nat.two_pow_add_eq_or_of_lt bound]
  omega

/-- With no sprite flag set, a second read of register 2 returns the same byte: the first left it in the latch (R289). -/
theorem readStatus_readStatus {s : State} (noHit : s.ppu.sprite0Hit = false) (noOverflow : s.ppu.spriteOverflow = false) :
    (readStatus (readStatus s).2).1 = (readStatus s).1 := by
  refine BitVec.eq_of_toNat_eq ?_
  have first := toNat_readStatus s
  have second := toNat_readStatus (readStatus s).2
  rw [noHit, noOverflow, Bool.toNat_false] at first
  replace second : (readStatus (readStatus s).2).1.toNat =
      128 * s.ppu.vblank.toNat + 64 * 0 + 32 * 0 + (readStatus s).1.toNat % 32 := second
  omega

/-- Settles O26: an access to any mirror of register 2 is `readStatus`. -/
theorem statusRegisterRead : Obligations.StatusRegisterRead := by
  intro s a b insideA insideB regA regB
  have readA (u : State) : cpuRead a u = readStatus u := by rw [cpuRead_of_aperture u insideA, regA]; rfl
  have readB (u : State) : cpuRead b u = readStatus u := by rw [cpuRead_of_aperture u insideB, regB]; rfl
  simp only [byteAt, readA, readB]
  exact ⟨toNat_readStatus s, rfl, readStatus_readStatus⟩

/-- v moves by 1 or 32 mod 2^15 after an access to register 7 (R296). -/
theorem add_increment (p : Ppu) (v : Loopy) :
    v + p.increment = BitVec.ofNat 15 (v.toNat + if p.ctrl.getLsbD 2 then 32 else 1) := by
  unfold Ppu.increment
  split <;> bv_omega

/-- A VideoMemory write does not look at the PPU's registers (R70 to R73). -/
theorem videoWrite_setPpu (s : State) (p : Ppu) (a : Nat) (d : Byte) :
    videoWrite (s.setPpu p) a d = (videoWrite s a d).setPpu p := by
  simp only [videoWrite, State.setPpu_cart]
  split <;> rfl

/-- Register 7 read, whatever the variant: `dataFetch` gives the byte and the buffer, and v moves on (R294, R296). -/
theorem ppuRegRead_data {s : State} {byte buffer : Byte} (fetched : dataFetch s = (byte, buffer)) :
    ppuRegRead 7 s = (byte, { s with ppu := { s.ppu with
      v := BitVec.ofNat 15 (s.ppu.v.toNat + if s.ppu.ctrl.getLsbD 2 then 32 else 1)
      latch := byte, readBuffer := buffer } }) := by
  rw [← add_increment]
  simp only [ppuRegRead, readData, fetched, State.setPpu]

/-- Register 7 write: VideoMemory at v, then v moves on (R294, R296). -/
theorem writeData_eq (d : Byte) (s : State) :
    writeData d s = (videoWrite s s.ppu.v.toNat d).setPpu { s.ppu with v := s.ppu.v + s.ppu.increment } := by
  rw [writeData, videoWrite_ppu]

/-- Settles O27: the three cases of what register 7 fetches, and the write at v. -/
theorem dataRegisterAccess : Obligations.DataRegisterAccess := by
  intro s d
  refine ⟨fun direct => ?direct, fun buffered below => ?buffer, fun buffered palette => ?palette, ?write⟩
  case direct => exact ppuRegRead_data (by rw [dataFetch, direct]; rfl)
  case buffer => exact ppuRegRead_data (by rw [dataFetch, buffered, if_pos rfl, if_pos below])
  case palette => exact ppuRegRead_data (by rw [dataFetch, buffered, if_pos rfl, if_neg (Nat.not_lt.mpr palette)])
  case write =>
    rw [← add_increment, ppuRegWrite, ppuRegEffect, writeData_eq, State.setPpu_ppu, videoWrite_setPpu]
    rfl

/-! ## The fields of a loopy register, bit by bit (R270) -/

theorem getLsbD_extractLsb'_of_lt {n : Nat} (v : BitVec n) (start : Nat) {len k : Nat} (h : k < len) :
    (v.extractLsb' start len).getLsbD k = v.getLsbD (start + k) := by
  rw [BitVec.getLsbD_extractLsb', decide_eq_true h, Bool.true_and]

theorem getLsbD_coarseX (v : Loopy) {k : Nat} (h : k < 5) : (coarseX v).getLsbD k = v.getLsbD k := by
  rw [coarseX, getLsbD_extractLsb'_of_lt v 0 h, Nat.zero_add]

theorem getLsbD_coarseY (v : Loopy) {k : Nat} (h : k < 5) : (coarseY v).getLsbD k = v.getLsbD (5 + k) :=
  getLsbD_extractLsb'_of_lt v 5 h

theorem getLsbD_nametable (v : Loopy) {k : Nat} (h : k < 2) : (nametable v).getLsbD k = v.getLsbD (10 + k) :=
  getLsbD_extractLsb'_of_lt v 10 h

theorem getLsbD_fineY (v : Loopy) {k : Nat} (h : k < 3) : (fineY v).getLsbD k = v.getLsbD (12 + k) :=
  getLsbD_extractLsb'_of_lt v 12 h

/-! Two loopy registers agree on the bits of a field they agree on. -/

section
variable {u v : Loopy} {k : Nat}

theorem getLsbD_congr_of_coarseX (same : coarseX u = coarseX v) (h : k < 5) : u.getLsbD k = v.getLsbD k := by
  rw [← getLsbD_coarseX u h, same, getLsbD_coarseX v h]

theorem getLsbD_congr_of_coarseY (same : coarseY u = coarseY v) (h : 5 ≤ k) (h' : k < 10) : u.getLsbD k = v.getLsbD k := by
  obtain ⟨j, rfl⟩ := Nat.exists_eq_add_of_le h
  rw [← getLsbD_coarseY u (by omega), same, getLsbD_coarseY v (by omega)]

theorem getLsbD_congr_of_nametable (same : nametable u = nametable v) (h : 10 ≤ k) (h' : k < 12) :
    u.getLsbD k = v.getLsbD k := by
  obtain ⟨j, rfl⟩ := Nat.exists_eq_add_of_le h
  rw [← getLsbD_nametable u (by omega), same, getLsbD_nametable v (by omega)]

theorem getLsbD_congr_of_fineY (same : fineY u = fineY v) (h : 12 ≤ k) : u.getLsbD k = v.getLsbD k := by
  by_cases high : 15 ≤ k
  · rw [BitVec.getLsbD_of_ge u k high, BitVec.getLsbD_of_ge v k high]
  · obtain ⟨j, rfl⟩ := Nat.exists_eq_add_of_le h
    rw [← getLsbD_fineY u (by omega), same, getLsbD_fineY v (by omega)]

end

/-! ## Register writes (R290 to R293, R295) -/

/-- Signalling an NMI on a condition can only set the slot (R36). -/
theorem ite_setNmiPending (s : State) (signal : Bool) :
    (if signal then s.setNmiPending true else s) = s.setNmiPending (s.cpu.nmiPending || signal) := by
  cases signal
  · rw [Bool.or_false]; rfl
  · rw [Bool.or_true]; rfl

/-- Settles O28: a control write replaces the nametable field of t and leaves its other fields. -/
theorem controlRegisterWrites : Obligations.ControlRegisterWrites := by
  intro s d
  refine ⟨⟨loopy (fineY s.ppu.t) (d.extractLsb' 0 2) (coarseY s.ppu.t) (coarseX s.ppu.t), nametable_loopy _ _ _ _, ?kept, ?write⟩,
    rfl, rfl, rfl, rfl⟩
  case kept =>
    intro k hk
    rcases hk with low | high
    · by_cases x : k < 5
      · exact getLsbD_congr_of_coarseX (coarseX_loopy _ _ _ _) x
      · exact getLsbD_congr_of_coarseY (coarseY_loopy _ _ _ _) (Nat.not_lt.mp x) low
    · exact getLsbD_congr_of_fineY (fineY_loopy _ _ _ _) high
  case write =>
    rw [ppuRegWrite, ppuRegEffect, writeControl, ite_setNmiPending]
    rfl

/-- t after the first write of register 6: the low byte is kept, bits 13 to 8 are the low six bits of the byte written, and bit 14 is 0
(R295, C3). -/
theorem getLsbD_addressHigh (d : Byte) (t : Loopy) (k : Nat) :
    (0#1 ++ d.extractLsb' 0 6 ++ t.extractLsb' 0 8 : Loopy).getLsbD k =
      if k < 8 then t.getLsbD k else decide (k < 14) && d.getLsbD (k - 8) := by
  refine BitVec.getLsbD_append.trans ?_
  split
  · next low => rw [getLsbD_extractLsb'_of_lt t 0 low, Nat.zero_add]
  · rw [BitVec.getLsbD_append]
    split
    · next mid => rw [getLsbD_extractLsb'_of_lt d 0 mid, Nat.zero_add, decide_eq_true (by omega), Bool.true_and]
    · next top => rw [decide_eq_false (by omega), Bool.false_and, BitVec.getLsbD_zero]

/-- t after the second write of register 6: the low byte is the byte written and the rest is kept (R295). -/
theorem getLsbD_addressLow (d : Byte) (t : Loopy) (k : Nat) :
    (t.extractLsb' 8 7 ++ d : Loopy).getLsbD k = if k < 8 then d.getLsbD k else t.getLsbD k := by
  refine BitVec.getLsbD_append.trans ?_
  split
  · rfl
  · have index : 8 + (k - 8) = k := by omega
    rw [BitVec.getLsbD_extractLsb', index]
    by_cases inside : k < 15
    · rw [decide_eq_true (by omega), Bool.true_and]
    · rw [decide_eq_false (by omega), Bool.false_and, BitVec.getLsbD_of_ge t k (by omega)]

/-- Settles O29: each write replaces some fields of t, or its low byte, or its bits from 8 up, and leaves the rest. -/
theorem scrollAndAddressWrites : Obligations.ScrollAndAddressWrites := by
  intro s d
  refine ⟨fun clear => ?scrollX, fun set => ?scrollY, fun clear => ?addressHigh, fun set => ?addressLow⟩
  case scrollX =>
    refine ⟨loopy (fineY s.ppu.t) (nametable s.ppu.t) (coarseY s.ppu.t) (d.extractLsb' 3 5), coarseX_loopy _ _ _ _,
      fun k hk => ?kept, ?write⟩
    case kept =>
      by_cases y : k < 10
      · exact getLsbD_congr_of_coarseY (coarseY_loopy _ _ _ _) hk y
      by_cases nt : k < 12
      · exact getLsbD_congr_of_nametable (nametable_loopy _ _ _ _) (by omega) nt
      · exact getLsbD_congr_of_fineY (fineY_loopy _ _ _ _) (by omega)
    case write =>
      rw [ppuRegWrite, ppuRegEffect, writeScroll, State.setPpu_ppu, clear]
      rfl
  case scrollY =>
    refine ⟨loopy (d.extractLsb' 0 3) (nametable s.ppu.t) (d.extractLsb' 3 5) (coarseX s.ppu.t), fineY_loopy _ _ _ _,
      coarseY_loopy _ _ _ _, fun k hk => ?kept, ?write⟩
    case kept =>
      rcases hk with x | ⟨nt, nt'⟩
      · exact getLsbD_congr_of_coarseX (coarseX_loopy _ _ _ _) x
      · exact getLsbD_congr_of_nametable (nametable_loopy _ _ _ _) nt nt'
    case write =>
      rw [ppuRegWrite, ppuRegEffect, writeScroll, State.setPpu_ppu, set]
      rfl
  case addressHigh =>
    refine ⟨0#1 ++ d.extractLsb' 0 6 ++ s.ppu.t.extractLsb' 0 8, ?set, ?top, fun k hk => ?kept, ?write⟩
    case set =>
      refine BitVec.eq_of_getLsbD_eq fun k hk => ?_
      rw [getLsbD_extractLsb'_of_lt _ 8 hk, getLsbD_addressHigh, if_neg (by omega), decide_eq_true (by omega), Bool.true_and,
        Nat.add_sub_cancel_left, getLsbD_extractLsb'_of_lt d 0 hk, Nat.zero_add]
    case top => exact getLsbD_addressHigh d s.ppu.t 14
    case kept => rw [getLsbD_addressHigh, if_pos hk]
    case write =>
      rw [ppuRegWrite, ppuRegEffect, writeAddress, State.setPpu_ppu, clear]
      rfl
  case addressLow =>
    refine ⟨s.ppu.t.extractLsb' 8 7 ++ d, ?set, fun k hk => ?kept, ?write⟩
    case set => exact BitVec.extractLsb'_append_eq_right
    case kept => rw [getLsbD_addressLow, if_neg (Nat.not_lt.mpr hk)]
    case write =>
      rw [ppuRegWrite, ppuRegEffect, writeAddress, State.setPpu_ppu, set]
      rfl

/-! ## The steps of v (R274, R275, R277) -/

theorem toNat_coarseX (v : Loopy) : (coarseX v).toNat = v.toNat % 32 :=
  BitVec.extractLsb'_toNat 0 5 v

theorem toNat_coarseY (v : Loopy) : (coarseY v).toNat = v.toNat / 32 % 32 := by
  rw [coarseY, BitVec.extractLsb'_toNat, Nat.shiftRight_eq_div_pow]

theorem toNat_fineY (v : Loopy) : (fineY v).toNat = v.toNat / 4096 := by
  have bound := v.isLt
  rw [fineY, BitVec.extractLsb'_toNat, Nat.shiftRight_eq_div_pow]
  omega

theorem coarseX_eq_iff (v : Loopy) (n : BitVec 5) : coarseX v = n ↔ v.toNat % 32 = n.toNat := by
  rw [← BitVec.toNat_inj, toNat_coarseX]

theorem coarseY_eq_iff (v : Loopy) (n : BitVec 5) : coarseY v = n ↔ v.toNat / 32 % 32 = n.toNat := by
  rw [← BitVec.toNat_inj, toNat_coarseY]

/-- The mask that flips bit `k` of the nametable select on a condition. -/
theorem getLsbD_flipMask (flip : Prop) [Decidable flip] (mask : BitVec 2) (k : Nat) :
    (if flip then mask else 0#2).getLsbD k = (decide flip && mask.getLsbD k) := by
  split
  · next h => rw [decide_eq_true h, Bool.true_and]
  · next h => rw [decide_eq_false h, Bool.false_and, BitVec.getLsbD_zero]

/-- A nametable bit of a loopy register whose select was xored with a mask on a condition (R274, R275). -/
theorem getLsbD_flipNametable (fy : BitVec 3) (v : Loopy) (flip : Prop) [Decidable flip] (mask : BitVec 2) (cy cx : BitVec 5)
    {k : Nat} (h : k < 2) :
    (loopy fy (nametable v ^^^ if flip then mask else 0#2) cy cx).getLsbD (10 + k) =
      (v.getLsbD (10 + k) ^^ (decide flip && mask.getLsbD k)) := by
  rw [← getLsbD_nametable _ h, nametable_loopy, BitVec.getLsbD_xor, getLsbD_nametable v h, getLsbD_flipMask]

/-- The coarse X increment field by field: 31 wraps to 0 and flips the low nametable bit (R274). -/
theorem incrementCoarseX_eq (v : Loopy) :
    incrementCoarseX v =
      loopy (fineY v) (nametable v ^^^ if v.toNat % 32 = 31 then 1 else 0#2) (coarseY v) (coarseX v + 1) := by
  have wraps_iff : coarseX v = 31 ↔ v.toNat % 32 = 31 := coarseX_eq_iff v 31
  unfold incrementCoarseX
  by_cases wraps : coarseX v = 31
  · rw [if_pos wraps, if_pos (wraps_iff.mp wraps), wraps]
    rfl
  · rw [if_neg wraps, if_neg (mt wraps_iff.mpr wraps), BitVec.xor_zero]

/-- The Y increment field by field: fine Y counts mod 8 and carries into coarse Y, which goes to 0 from 29, with the high nametable bit
flipped, and from 31, without (R275). -/
theorem incrementY_eq (v : Loopy) :
    let y := v.toNat / 32 % 32
    let fine := v.toNat / 4096
    incrementY v =
      loopy (fineY v + 1) (nametable v ^^^ if fine = 7 ∧ y = 29 then 2 else 0#2)
        (if fine < 7 then coarseY v else if y = 29 ∨ y = 31 then 0 else coarseY v + 1) (coarseX v) := by
  intro y fine
  have row29_iff : coarseY v = 29 ↔ y = 29 := coarseY_eq_iff v 29
  have row31_iff : coarseY v = 31 ↔ y = 31 := coarseY_eq_iff v 31
  have fine_eq : (fineY v).toNat = fine := toNat_fineY v
  unfold incrementY
  simp only [row29_iff, row31_iff, fine_eq]
  by_cases counts : fine < 7
  · rw [if_pos counts, if_pos counts, if_neg (fun flips => by omega), BitVec.xor_zero]
  · have last : fine = 7 := by have := (fineY v).isLt; omega
    have wraps : fineY v + 1 = 0 := by bv_omega
    rw [if_neg counts, if_neg counts, wraps]
    by_cases row29 : y = 29
    · rw [if_pos row29, if_pos (Or.inl row29), if_pos ⟨last, row29⟩]
    · rw [if_neg row29, if_neg (show ¬(fine = 7 ∧ y = 29) from fun flips => row29 flips.2), BitVec.xor_zero]
      by_cases row31 : y = 31
      · rw [if_pos row31, if_pos (Or.inr row31)]
      · rw [if_neg row31, if_neg (fun h => h.elim row29 row31)]

/-- The coarse X increment counts mod 32 and touches no bit but its own and bit 10 (R274). -/
theorem incrementCoarseX_bits (v : Loopy) :
    let x := v.toNat % 32
    (incrementCoarseX v).toNat % 32 = (x + 1) % 32
      ∧ (incrementCoarseX v).getLsbD 10 = (v.getLsbD 10 ^^ decide (x = 31))
      ∧ ∀ k, 5 ≤ k → k ≠ 10 → (incrementCoarseX v).getLsbD k = v.getLsbD k := by
  intro x
  rw [incrementCoarseX_eq]
  refine ⟨?count, ?flip, fun k hk hk' => ?kept⟩
  case count =>
    rw [← toNat_coarseX, coarseX_loopy, BitVec.toNat_add, toNat_coarseX]
    rfl
  case flip => simpa using getLsbD_flipNametable (fineY v) v (x = 31) 1 (coarseY v) (coarseX v + 1) (k := 0) (by decide)
  case kept =>
    by_cases y : k < 10
    · exact getLsbD_congr_of_coarseY (coarseY_loopy _ _ _ _) hk y
    by_cases fine : 12 ≤ k
    · exact getLsbD_congr_of_fineY (fineY_loopy _ _ _ _) fine
    obtain rfl : k = 11 := by omega
    simpa using getLsbD_flipNametable (fineY v) v (x = 31) 1 (coarseY v) (coarseX v + 1) (k := 1) (by decide)

/-- The Y increment carries from fine into coarse Y and touches no bit but theirs and bit 11 (R275). -/
theorem incrementY_bits (v : Loopy) :
    let y := v.toNat / 32 % 32
    let fine := v.toNat / 4096
    (incrementY v).toNat / 4096 = (fine + 1) % 8
      ∧ (incrementY v).toNat / 32 % 32 = (if fine < 7 then y else if y = 29 ∨ y = 31 then 0 else y + 1)
      ∧ (incrementY v).getLsbD 11 = (v.getLsbD 11 ^^ decide (fine = 7 ∧ y = 29))
      ∧ ∀ k, k < 5 ∨ k = 10 → (incrementY v).getLsbD k = v.getLsbD k := by
  intro y fine
  rw [incrementY_eq]
  refine ⟨?fine, ?coarse, ?flip, fun k hk => ?kept⟩
  case fine =>
    rw [← toNat_fineY, fineY_loopy, BitVec.toNat_add, toNat_fineY]
    rfl
  case coarse =>
    rw [← toNat_coarseY, coarseY_loopy]
    have row : (coarseY v).toNat = y := toNat_coarseY v
    split
    · exact row
    · split
      · rfl
      · bv_omega
  case flip => simpa using getLsbD_flipNametable (fineY v + 1) v (fine = 7 ∧ y = 29) 2 _ (coarseX v) (k := 1) (by decide)
  case kept =>
    rcases hk with x | rfl
    · exact getLsbD_congr_of_coarseX (coarseX_loopy _ _ _ _) x
    · simpa using getLsbD_flipNametable (fineY v + 1) v (fine = 7 ∧ y = 29) 2 _ (coarseX v) (k := 0) (by decide)

/-- The nametable select after the copy: the low bit is the other register's, the high bit its own (R277). -/
theorem getLsbD_copiedSelect :
    ∀ own other : BitVec 2,
      (own.extractLsb' 1 1 ++ other.extractLsb' 0 1 : BitVec 2).getLsbD 0 = other.getLsbD 0
        ∧ (own.extractLsb' 1 1 ++ other.extractLsb' 0 1 : BitVec 2).getLsbD 1 = own.getLsbD 1 := by
  decide

/-- The copy takes coarse X and bit 10 from t and every other bit from v (R277). -/
theorem getLsbD_copyHorizontal (v t : Loopy) (k : Nat) :
    (copyHorizontal v t).getLsbD k = if k < 5 ∨ k = 10 then t.getLsbD k else v.getLsbD k := by
  unfold copyHorizontal
  by_cases x : k < 5
  · rw [if_pos (.inl x)]
    exact getLsbD_congr_of_coarseX (coarseX_loopy _ _ _ _) x
  by_cases y : k < 10
  · rw [if_neg (by omega)]
    exact getLsbD_congr_of_coarseY (coarseY_loopy _ _ _ _) (by omega) y
  by_cases fine : 12 ≤ k
  · rw [if_neg (by omega)]
    exact getLsbD_congr_of_fineY (fineY_loopy _ _ _ _) fine
  · rw [getLsbD_loopy, if_neg x, if_neg y, if_pos (by omega)]
    obtain rfl | rfl : k = 10 ∨ k = 11 := by omega
    · exact (getLsbD_copiedSelect _ _).1.trans (getLsbD_nametable t (k := 0) (by decide))
    · exact (getLsbD_copiedSelect _ _).2.trans (getLsbD_nametable v (k := 1) (by decide))

/-- Settles O30, by the fields of each of the three steps. -/
theorem loopyRegisterSteps : Obligations.LoopyRegisterSteps :=
  fun v t => ⟨incrementCoarseX_bits v, incrementY_bits v, getLsbD_copyHorizontal v t⟩

/-! ## The counters (R271, R272) -/

/-- A tick that passes over a dot begins the next frame (R272). -/
theorem ppuTick_position_of_skip {s : State} (line : s.ppu.scanline = 261) (dot : s.ppu.cycle = 339) (odd : s.ppu.oddFrame = true)
    (active : renderingActive s = true) :
    (ppuTick s).ppu.scanline = 0 ∧ (ppuTick s).ppu.cycle = 0 ∧ (ppuTick s).ppu.oddFrame = false := by
  rcases skippedCycle_cases s with ⟨_, noSkip⟩ | e
  · exact absurd ⟨line, dot, odd, active⟩ noSkip
  · obtain ⟨scanline, cycle, oddFrame⟩ := ppuTick_position s
    rw [scanline, cycle, oddFrame, e, odd]
    exact ⟨rfl, rfl, rfl⟩

/-! A tick that passes over no dot moves one cycle on, or to the next scanline, or to the next frame (R271). -/

theorem ppuTick_position_of_nextDot {s : State} (noSkip : skippedCycle s = s.ppu.cycle) (dot : s.ppu.cycle ≠ 340) :
    (ppuTick s).ppu.scanline = s.ppu.scanline ∧ (ppuTick s).ppu.cycle = s.ppu.cycle + 1
      ∧ (ppuTick s).ppu.oddFrame = s.ppu.oddFrame := by
  obtain ⟨scanline, cycle, oddFrame⟩ := ppuTick_position s
  rw [scanline, cycle, oddFrame, advanceCounters_noSkip noSkip, if_neg dot]
  exact ⟨rfl, rfl, rfl⟩

theorem skippedCycle_of_last {s : State} (dot : s.ppu.cycle = 340) : skippedCycle s = s.ppu.cycle :=
  if_neg fun ⟨_, dot', _⟩ => by omega

theorem ppuTick_position_of_nextLine {s : State} (dot : s.ppu.cycle = 340) (line : s.ppu.scanline ≠ 261) :
    (ppuTick s).ppu.scanline = s.ppu.scanline + 1 ∧ (ppuTick s).ppu.cycle = 0 ∧ (ppuTick s).ppu.oddFrame = s.ppu.oddFrame := by
  obtain ⟨scanline, cycle, oddFrame⟩ := ppuTick_position s
  rw [scanline, cycle, oddFrame, advanceCounters_noSkip (skippedCycle_of_last dot), if_pos dot, if_neg line]
  exact ⟨rfl, rfl, rfl⟩

theorem ppuTick_position_of_nextFrame {s : State} (dot : s.ppu.cycle = 340) (line : s.ppu.scanline = 261) :
    (ppuTick s).ppu.scanline = 0 ∧ (ppuTick s).ppu.cycle = 0 ∧ (ppuTick s).ppu.oddFrame = !s.ppu.oddFrame := by
  obtain ⟨scanline, cycle, oddFrame⟩ := ppuTick_position s
  rw [scanline, cycle, oddFrame, advanceCounters_noSkip (skippedCycle_of_last dot), if_pos dot, if_pos line]
  exact ⟨rfl, rfl, rfl⟩

/-- Settles O32: a tick passes over a dot exactly at (261, 339) of an odd frame with rendering active. -/
theorem ppuCountersAdvance : Obligations.PpuCountersAdvance := by
  intro s _ _ t skip
  have skip_iff : skip ↔ s.ppu.scanline = 261 ∧ s.ppu.cycle = 339 ∧ s.ppu.oddFrame = true ∧ renderingActive s = true := by
    rw [renderingActive_iff]
    exact ⟨fun ⟨odd, line, dot, active⟩ => ⟨line, dot, odd, active⟩, fun ⟨line, dot, odd, active⟩ => ⟨odd, line, dot, active⟩⟩
  refine ⟨fun skips => ?skips, fun noSkip dot => ?dot, fun dot line => ?line, fun dot line => ?frame⟩
  case skips =>
    obtain ⟨line, dot, odd, active⟩ := skip_iff.mp skips
    exact ppuTick_position_of_skip line dot odd active
  case dot => exact ppuTick_position_of_nextDot (if_neg (mt skip_iff.mpr noSkip)) (by omega)
  case line => exact ppuTick_position_of_nextLine dot (by omega)
  case frame => exact ppuTick_position_of_nextFrame dot line

/-! ## A whole frame (R271, R272) -/

theorem ppuTicks_succ (k : Nat) (s : State) : ppuTicks (k + 1) s = ppuTick (ppuTicks k s) := by
  induction k generalizing s with
  | zero => rfl
  | succ k ih => exact ih (ppuTick s)

theorem ppuTicks_sameSession (k : Nat) (s : State) : SameSession s (ppuTicks k s) := by
  induction k generalizing s with
  | zero => exact .refl s
  | succ k ih => exact (ppuTick_sameSession s).trans (ih (ppuTick s))

/-- The position within a frame by the number of ticks since (0, 0), up to the frame's last dot: (261, 340), or (261, 339) on an odd
frame (R271, R272). -/
theorem ppuTicks_position {s : State} (line : s.ppu.scanline = 0) (dot : s.ppu.cycle = 0) (k : Nat)
    (bound : k < if s.ppu.oddFrame then 89341 else 89342) :
    (ppuTicks k s).ppu.scanline = k / 341 ∧ (ppuTicks k s).ppu.cycle = k % 341
      ∧ (ppuTicks k s).ppu.oddFrame = s.ppu.oddFrame := by
  induction k with
  | zero => exact ⟨line, dot, rfl⟩
  | succ k ih =>
    obtain ⟨line', dot', odd'⟩ := ih (Nat.lt_of_succ_lt bound)
    have inFrame : k + 1 < 89342 := by split at bound <;> omega
    have noSkip : skippedCycle (ppuTicks k s) = (ppuTicks k s).ppu.cycle := by
      refine if_neg fun ⟨atLine, atDot, odd, _⟩ => ?_
      rw [odd'.symm.trans odd, if_pos rfl] at bound
      omega
    rw [ppuTicks_succ]
    by_cases last : (ppuTicks k s).ppu.cycle = 340
    · obtain ⟨scanline, cycle, oddFrame⟩ := ppuTick_position_of_nextLine last (by omega)
      exact ⟨by omega, by omega, oddFrame.trans odd'⟩
    · obtain ⟨scanline, cycle, oddFrame⟩ := ppuTick_position_of_nextDot noSkip last
      exact ⟨by omega, by omega, oddFrame.trans odd'⟩

/-- Settles O31: the ticks within the frame, and then the last one, from (261, 340), or passing over it from (261, 339). -/
theorem frameOfPpuTicks : Obligations.FrameOfPpuTicks := by
  intro s line dot
  refine ⟨fun even => ⟨fun k hk => ?within, ?last⟩, fun odd gate => ⟨fun k hk => ?withinOdd, ?lastOdd⟩⟩
  case within =>
    rw [← even]
    exact ppuTicks_position line dot k (by rw [even]; exact hk)
  case last =>
    obtain ⟨line', dot', odd'⟩ := ppuTicks_position line dot 89341 (by rw [even]; decide)
    have last := ppuTick_position_of_nextFrame dot' line'
    rw [odd', even] at last
    rw [ppuTicks_succ 89341]
    exact last
  case withinOdd =>
    rw [← odd]
    exact ppuTicks_position line dot k (by rw [odd]; exact hk)
  case lastOdd =>
    obtain ⟨line', dot', odd'⟩ := ppuTicks_position line dot 89340 (by rw [odd]; decide)
    obtain ⟨_, params, _, _⟩ := ppuTicks_sameSession 89340 s
    have active : renderingActive (ppuTicks 89340 s) = true := (renderingActive_iff _).mpr (.inl (by rw [params, gate]))
    rw [ppuTicks_succ 89340]
    exact ppuTick_position_of_skip line' dot' (odd'.trans odd) active

/-! ## The events of the position a tick reaches (R273, R278 to R282) -/

theorem visibleEvents_of_256 {p : Ppu} (h : p.cycle = 256) : visibleEvents p = incrementY (incrementCoarseX p.v) := if_pos h

theorem visibleEvents_of_257 {p : Ppu} (h : p.cycle = 257) : visibleEvents p = copyHorizontal p.v p.t := by
  rw [visibleEvents, if_neg (by omega), if_pos h]

theorem visibleEvents_of_tile {p : Ppu} (h : 8 ≤ p.cycle) (h' : p.cycle < 256) (h8 : p.cycle % 8 = 0) :
    visibleEvents p = incrementCoarseX p.v := by
  rw [visibleEvents, if_neg (by omega), if_neg (by omega), if_pos (by omega)]

theorem visibleEvents_of_other {p : Ppu} (h : ¬((8 ≤ p.cycle ∧ p.cycle ≤ 256 ∧ p.cycle % 8 = 0) ∨ p.cycle = 257)) :
    visibleEvents p = p.v := by
  rw [visibleEvents, if_neg (by omega), if_neg (by omega), if_neg (by omega)]

/-- v after a tick: the events of a visible scanline while rendering is active, and nothing elsewhere (R273, R278, R279). -/
theorem ppuTick_v (s : State) :
    (ppuTick s).ppu.v =
      if (advanceCounters s).scanline < 240 ∧ renderingActive s = true then visibleEvents (advanceCounters s) else s.ppu.v := by
  have kept : (advanceCounters s).v = s.ppu.v := by rw [advanceCounters_frame]
  rcases ppuTick_cases s with ⟨visible, active, e⟩ | ⟨line, _, e⟩ | ⟨line, _, e⟩ | ⟨noEvent, _, _, e⟩ <;> rw [e]
  · rw [if_pos ⟨visible, active⟩]
    rfl
  · rw [if_neg (by omega)]
    exact kept
  · rw [if_neg (by omega)]
    exact kept
  · rw [if_neg noEvent]
    exact kept

/-- Settles O33: the event of a visible scanline by the cycle reached. -/
theorem scrollEventsByPosition : Obligations.ScrollEventsByPosition := by
  intro s t c visible
  obtain ⟨scanline, cycle, _⟩ := ppuTick_position s
  have visible_iff : visible ↔ (advanceCounters s).scanline < 240 ∧ renderingActive s = true := by
    rw [renderingActive_iff, ← scanline]
  have v_eq : (advanceCounters s).v = s.ppu.v := by rw [advanceCounters_frame]
  have t_eq : (advanceCounters s).t = s.ppu.t := by rw [advanceCounters_frame]
  have event (h : visible) : t.ppu.v = visibleEvents (advanceCounters s) := (ppuTick_v s).trans (if_pos (visible_iff.mp h))
  have c_eq : c = (advanceCounters s).cycle := cycle
  rw [c_eq]
  refine ⟨fun h at256 => ?row, fun h at257 => ?copy, fun h ⟨low, high, tile⟩ => ?tile, fun none => ?none⟩
  case row => rw [event h, visibleEvents_of_256 at256, v_eq]
  case copy => rw [event h, visibleEvents_of_257 at257, v_eq, t_eq]
  case tile => rw [event h, visibleEvents_of_tile low high tile, v_eq]
  case none =>
    by_cases h : visible
    · rw [event h, visibleEvents_of_other fun h' => none ⟨h, h'⟩, v_eq]
    · exact (ppuTick_v s).trans (if_neg (mt visible_iff.mpr h))

/-- The three status bits after a tick: vblank is set at (241, 1), and all three are cleared at (261, 1) (R280, R281). -/
theorem ppuTick_statusBits (s : State) :
    let ends := (ppuTick s).ppu.scanline = 261 ∧ (ppuTick s).ppu.cycle = 1
    (ppuTick s).ppu.vblank =
        (if (ppuTick s).ppu.scanline = 241 ∧ (ppuTick s).ppu.cycle = 1 then true else if ends then false else s.ppu.vblank)
      ∧ (ppuTick s).ppu.sprite0Hit = (if ends then false else s.ppu.sprite0Hit)
      ∧ (ppuTick s).ppu.spriteOverflow = (if ends then false else s.ppu.spriteOverflow) := by
  intro ends
  obtain ⟨scanline, cycle, _⟩ := ppuTick_position s
  have kept := advanceCounters_frame s
  rcases ppuTick_cases s with ⟨visible, _, e⟩ | ⟨line, dot, e⟩ | ⟨line, dot, e⟩ | ⟨_, noStart, noEnd, e⟩
  · have noStart : ¬((ppuTick s).ppu.scanline = 241 ∧ (ppuTick s).ppu.cycle = 1) := by omega
    have noEnd : ¬ends := by omega
    rw [if_neg noStart, if_neg noEnd, if_neg noEnd, if_neg noEnd, e, kept]
    exact ⟨rfl, rfl, rfl⟩
  · have noEnd : ¬ends := by omega
    rw [if_pos ⟨scanline.trans line, cycle.trans dot⟩, if_neg noEnd, if_neg noEnd, e, kept]
    exact ⟨rfl, rfl, rfl⟩
  · have noStart : ¬((ppuTick s).ppu.scanline = 241 ∧ (ppuTick s).ppu.cycle = 1) := by omega
    have atEnd : ends := ⟨scanline.trans line, cycle.trans dot⟩
    rw [if_neg noStart, if_pos atEnd, if_pos atEnd, if_pos atEnd, e]
    exact ⟨rfl, rfl, rfl⟩
  · rw [← scanline, ← cycle] at noStart noEnd
    rw [if_neg noStart, if_neg noEnd, if_neg noEnd, if_neg noEnd, e, kept]
    exact ⟨rfl, rfl, rfl⟩

/-- Settles O34: the status bits and the NMI slot after a tick, read off at each of the three kinds of position. -/
theorem vblankAndNmiSignal : Obligations.VblankAndNmiSignal := by
  intro s t starts ends
  obtain ⟨vblank, hit, overflow⟩ := ppuTick_statusBits s
  have nmi := ppuTick_nmiPending s
  refine ⟨fun h => ?starts, fun h => ?ends, fun h => ?noNmi, fun h h' => ?vblank, fun h => ?sprites⟩
  case starts =>
    rw [if_pos h] at vblank
    rw [decide_eq_true h, Bool.true_and] at nmi
    exact ⟨vblank, nmi⟩
  case ends =>
    have noStart : ¬starts := fun h' => by omega
    rw [if_neg noStart, if_pos h] at vblank
    rw [if_pos h] at hit overflow
    exact ⟨vblank, hit, overflow⟩
  case noNmi => rwa [decide_eq_false h, Bool.false_and, Bool.or_false] at nmi
  case vblank => rwa [if_neg h, if_neg h'] at vblank
  case sprites =>
    rw [if_neg h] at hit overflow
    exact ⟨hit, overflow⟩

end Sys2Proof.Machine

/-!
PROOFS. The statements of 70_reset_and_hazards.md: which configurations construction accepts and what the buses then show, and the silent effects.
-/

namespace Sys2Proof.Machine

/-! ## Session construction: the checks of R323 -/

theorem prgSizeOf_eq_some_iff {n : Nat} {size : PrgSize} : prgSizeOf n = some size ↔ n = size.bytes := by
  constructor
  · intro h
    unfold prgSizeOf at h
    split at h
    · next small => cases h; exact small
    · split at h
      · next large => cases h; exact large
      · cases h
  · rintro rfl
    cases size <;> rfl

/-- The accepted PRG lengths (D20). -/
theorem exists_prgSizeOf_iff {n : Nat} : (∃ size, prgSizeOf n = some size) ↔ n = 16384 ∨ n = 32768 := by
  simp only [prgSizeOf_eq_some_iff]
  constructor
  · rintro ⟨size, rfl⟩
    cases size
    · exact .inl rfl
    · exact .inr rfl
  · exact fun h => h.elim (fun small => ⟨.k16, small⟩) fun large => ⟨.k32, large⟩

/-- An empty image leaves the pattern range to CHR RAM; the other accepted one is the 8192-byte CHR ROM (R70; D20). -/
theorem chrRomOf_eq_some_iff {chr : List Byte} {rom : Option Memory} :
    chrRomOf chr = some rom ↔
      (chr.length = 0 ∧ rom = none) ∨ (chr.length = 0x2000 ∧ rom = some (Memory.ofBytes 0 chr)) := by
  constructor
  · intro h
    unfold chrRomOf at h
    split at h
    · next empty => exact .inl ⟨empty, (Option.some.inj h).symm⟩
    · split at h
      · next full => exact .inr ⟨full, (Option.some.inj h).symm⟩
      · cases h
  · rintro (⟨empty, rfl⟩ | ⟨full, rfl⟩)
    · exact if_pos empty
    · rw [chrRomOf, if_neg (by omega), if_pos full]

/-- The accepted CHR lengths (D20). -/
theorem exists_chrRomOf_iff {chr : List Byte} : (∃ rom, chrRomOf chr = some rom) ↔ chr.length = 0 ∨ chr.length = 8192 := by
  simp only [chrRomOf_eq_some_iff, exists_or, exists_and_left, exists_eq, and_true]

section
variable {prg chr : List Byte} (mirroring : Mirroring) (params : Params) (l : Launch)

theorem construct_of_accepted {size : PrgSize} {rom : Option Memory} (hprg : prgSizeOf prg.length = some size)
    (hchr : chrRomOf chr = some rom) :
    State.construct prg chr mirroring params l =
      .ok (State.launch { prgSize := size, prg := Memory.ofBytes 0 prg, chrRom := rom, mirroring := mirroring } params l) := by
  simp only [State.construct, hprg, hchr]

theorem construct_of_refused
    (h : ¬((∃ size, prgSizeOf prg.length = some size) ∧ ∃ rom, chrRomOf chr = some rom)) :
    State.construct prg chr mirroring params l = .error (.badCartridge prg.length chr.length) := by
  unfold State.construct
  split
  · next size rom hprg hchr => exact absurd ⟨⟨size, hprg⟩, rom, hchr⟩ h
  · rfl

end

/-! ## The images on the two buses (R55, R70) -/

theorem Memory.read_ofBytes_zero (bytes : List Byte) (k : Nat) : (Memory.ofBytes 0 bytes).read k = bytes.getD k 0 := by
  have h := Memory.read_ofBytes 0 bytes k
  rwa [Nat.zero_add] at h

/-- The PRG window shows the image, again from its start after its last byte (R55). -/
theorem byteAt_of_prgImage {s : State} {prg : List Byte} (image : s.cart.prg = Memory.ofBytes 0 prg)
    (size : prg.length = s.cart.prgSize.bytes) {a : Word} (window : 0x8000 ≤ a.toNat) :
    byteAt s a = prg.getD ((a.toNat - 0x8000) % prg.length) 0 := by
  rw [byteAt, cpuRead_of_prg s window, image, Memory.read_ofBytes_zero, prgIndex, size]

/-- The byte of the first fetch (R321). -/
theorem byteAt_0x8000_of_prgImage {s : State} {prg : List Byte} (image : s.cart.prg = Memory.ofBytes 0 prg)
    (size : prg.length = s.cart.prgSize.bytes) : byteAt s 0x8000 = prg.getD 0 0 := by
  have start : ((0x8000 : Word).toNat - 0x8000) % prg.length = 0 := Nat.zero_mod _
  rw [byteAt_of_prgImage image size (by decide), start]

theorem videoRead_of_chrImage {s : State} {chr : List Byte} (image : s.cart.chrRom = some (Memory.ofBytes 0 chr)) {k : Nat}
    (pattern : k < 0x2000) : videoRead s k = chr.getD k 0 := by
  have cell : videoCell s.cart k = .chrRom k := by rw [videoCell_of_pattern _ pattern, image]; rfl
  rw [(videoAccess_chrRom 0 cell).1, image, Option.getD_some, Memory.read_ofBytes_zero]

/-- Settles O6: a configuration both length checks accept is launched with its images, which the buses then show; any other is
refused. -/
theorem constructionChecksAndMapsPrg : Obligations.ConstructionChecksAndMapsPrg := by
  intro prg chr mirroring params l accepted
  have checks : (∃ size, prgSizeOf prg.length = some size) ∧ (∃ rom, chrRomOf chr = some rom) ↔ accepted :=
    and_congr exists_prgSizeOf_iff exists_chrRomOf_iff
  refine ⟨fun refused => construct_of_refused _ _ _ (mt checks.mp refused), fun ok => ?_⟩
  obtain ⟨⟨size, hprg⟩, rom, hchr⟩ := checks.mpr ok
  have hsize : prg.length = size.bytes := prgSizeOf_eq_some_iff.mp hprg
  refine ⟨_, construct_of_accepted mirroring params l hprg hchr, rfl, byteAt_0x8000_of_prgImage rfl hsize,
    fun a window => byteAt_of_prgImage rfl hsize window, fun k pattern full => videoRead_of_chrImage ?rom pattern⟩
  case rom =>
    rcases chrRomOf_eq_some_iff.mp hchr with ⟨empty, _⟩ | ⟨_, image⟩
    · omega
    · exact image

/-! ## Silent effects (R337) -/

/-- Settles O23: the bus lemmas of the dropped and the unmapped range, and the wraps of SP and PC as modular arithmetic. -/
theorem silentEffects : Obligations.SilentEffects := by
  intro s a v n
  refine ⟨fun high => cpuWrite_dropped v s high, fun ⟨high, low⟩ => ?unmapped, fun bottom => ?push, fun top => ?pop, ?pc⟩
  case unmapped => rw [byteAt, cpuRead_of_unmapped s high low]
  case push => rw [push_eq, bottom]; rfl
  case pop => rw [pop_eq, top]; rfl
  case pc => rw [State.advance_cpu_pc, BitVec.toNat_add, BitVec.toNat_ofNat, Nat.add_mod_mod]

end Sys2Proof.Machine
